-- ==== Sys2Proof/Word.lean ====
section
/-! DEFINITION. The word types of the Rejsta 2088: a link character, a counter, and the two named pairs (links, pedals). -/

namespace Sys2Proof

/-- One character of a link message, or one code carried in one character (Section 10.7). -/
abbrev Byte := BitVec 8

/-- An event counter, which counts modulo 2^32 (Section 4 of 00_scope, R117, R199). -/
abbrev Counter := BitVec 32

/-- A set of the twelve notice kinds, one bit each, numbered as in Section 10.7.3 (R187, R196). -/
abbrev Notices := BitVec 12

/-- A key as an index 0 to 87; the manual's key number is one more (Section 4 of 00_scope). -/
abbrev Key := Fin 88

/-- A track of the roll, 0 to 98 (Section 4 of 00_scope). -/
abbrev Track := Fin 99

/-- A track line: bit `t` set means that track `t` is OPEN (Section 10.7.4). -/
abbrev TrackLine := BitVec 99

/-- A line from the scan head: bit `i` set means that sample `i` is OPEN (Section 2.1). -/
abbrev SensorLine := BitVec 1200

/-- The two links (R187). -/
inductive Link where
  | a
  | b
  deriving DecidableEq, Repr, Inhabited

/-- The two pedals (R119). -/
inductive PedalName where
  | damper
  | shift
  deriving DecidableEq, Repr, Inhabited

/-- The other link. -/
def Link.other : Link → Link
  | .a => .b
  | .b => .a

end Sys2Proof
end

