-- ==== Sys2Proof/Syntax.lean ====
section
/-! DEFINITION. The commands of the Rejsta 2088, one constructor per row of spec/opcode_table.json.
A request carries its link and the fields of its body as the link carries them (Section 10.7), so that every code a
master can send, in range or not, is a command. An event carries what names the thing it happens to. -/

namespace Sys2Proof

/-- The 71 steps of the part: 32 requests at their execution, and the events of its links, pins and timers. -/
inductive Instr where
  -- session requests (chapter 1)
  /-- SELECT_SOURCE (R3): source code, 0 SENSOR, 1 STREAM. -/
  | selectSource (l : Link) (source : Byte)
  /-- FREE (R4). -/
  | free (l : Link)
  /-- PREPARE (R5). -/
  | prepare (l : Link)
  /-- PLAY (R9). -/
  | play (l : Link)
  /-- PAUSE (R19). -/
  | pause (l : Link)
  /-- STOP (R20). -/
  | stop (l : Link)
  /-- SET_TEMPO (R18): the period in 1/32 µs. -/
  | setTempo (l : Link) (period : BitVec 24)
  /-- STREAM_LINES (R16): the count character and the track lines, 13 characters each, the first the lowest. -/
  | streamLines (l : Link) (count : Byte) (lines : List (BitVec 104))
  /-- STREAM_CLOSE (R17). -/
  | streamClose (l : Link)
  /-- SET_TRIM (R79). -/
  | setTrim (l : Link) (trim : Byte)
  -- claim requests (chapter 9)
  /-- CLAIM (R172). -/
  | claim (l : Link)
  /-- RENEW (R173). -/
  | renew (l : Link) (phase : Byte)
  /-- YIELD (R176). -/
  | yieldClaim (l : Link)
  /-- ASK_YIELD (R177). -/
  | askYield (l : Link)
  /-- SET_ADMISSION (R178): 0 NONE, 1 HOLDER, 2 BOTH. -/
  | setAdmission (l : Link) (admission : Byte)
  -- live requests (Section 9.5)
  /-- LIVE_STRIKE (R183): the characters of Section 10.7.5; a field the options leave out is 0. -/
  | liveStrike (l : Link) (key options velocity : Byte) (offset holdLength : BitVec 16)
  /-- LIVE_RELEASE (R184): the offset is 0 where the options leave it out. -/
  | liveRelease (l : Link) (key options : Byte) (offset : BitVec 16)
  /-- LIVE_PEDAL (R185): the offset is 0 where the options leave it out. -/
  | livePedal (l : Link) (pedal options : Byte) (offset : BitVec 16)
  -- map and store requests (chapter 8)
  /-- WRITE_RECORD (R153): selector, index and the record's contents in characters. -/
  | writeRecord (l : Link) (selector index : Byte) (contents : List Byte)
  /-- LOAD_PROFILE (R164): profile and boot flag. -/
  | loadProfile (l : Link) (profile boot : Byte)
  /-- COMMIT_PROFILE (R166): profile and boot flag. -/
  | commitProfile (l : Link) (profile boot : Byte)
  /-- SET_PROTECTION (R161): profile and state code. -/
  | setProtection (l : Link) (profile protection : Byte)
  -- reading and link requests (chapters 10, 11)
  /-- READ_STATUS (R201). -/
  | readStatus (l : Link)
  /-- READ_COUNTERS (R202): the group. -/
  | readCounters (l : Link) (group : Byte)
  /-- CLEAR_COUNTERS (R202). -/
  | clearCounters (l : Link)
  /-- READ_KEY (R203): the key number. -/
  | readKey (l : Link) (key : Byte)
  /-- READ_QUEUE (R203). -/
  | readQueue (l : Link)
  /-- STANDBY (R204). -/
  | standby (l : Link)
  /-- SET_NOTICE_MASK (R197): the two characters of a notice kind set. -/
  | setNoticeMask (l : Link) (kinds : BitVec 16)
  /-- SET_LINK_RATE (R198): the rate code. -/
  | setLinkRate (l : Link) (rate : Byte)
  /-- LINK_RESET (R206). -/
  | linkReset (l : Link)
  /-- UNKNOWN_REQUEST (R192): a message whose header kind names no request. -/
  | unknownRequest (l : Link) (kind : Byte) (body : List Byte)
  -- link events (chapter 10)
  /-- DISCARD_RECORD (R194): execution of a held discard record. -/
  | discardRecord (l : Link)
  /-- CHARACTER (R188, R191): the 33 samples of a character; bit `3 * i + j` is sample `j` of bit time `i`. -/
  | character (l : Link) (samples : BitVec 33)
  /-- BREAK (R189). -/
  | breakDetected (l : Link)
  /-- BREAK_REARM (R189). -/
  | breakRearm (l : Link)
  /-- IDLE_TRUNCATION (R191). -/
  | idleTruncation (l : Link)
  /-- LINK_DOWN (R190). -/
  | linkDown (l : Link)
  /-- LINK_UP (R190). -/
  | linkUp (l : Link)
  /-- MESSAGE_SENT (R193). -/
  | messageSent (l : Link)
  /-- NOTICE (R196). -/
  | notice (l : Link)
  /-- LINK_RATE_CHANGE (R198). -/
  | linkRateChange (l : Link)
  -- power and pin events (chapters 1, 7, 11)
  /-- STANDBY_ENTRY (R204): at the end of the response on this link. -/
  | standbyEntry (l : Link)
  /-- STABILISATION_END (R205). -/
  | stabilisationEnd
  /-- SERVICE_LINE (R205): the line's new level; asserted is the table's event. -/
  | serviceLine (asserted : Bool)
  /-- ROLL_PRESENT_CHANGE (R24): the line's new level. -/
  | rollPresentChange (asserted : Bool)
  /-- MONITOR_LEVEL_CHANGE (R138): the two threshold indications as they now are. -/
  | monitorLevelChange (low critical : Bool)
  /-- POWER_ON (R206). -/
  | powerOn
  /-- SUPPLY_FAIL (R206). -/
  | supplyFail
  /-- RESET_LINE (R206): the reset line asserted. -/
  | resetLine
  /-- LINK_RESET_EXECUTE (R206): at the end of the response on this link, or when it went DOWN. -/
  | linkResetExecute (l : Link)
  -- roll events (chapter 1)
  /-- SCAN_IMAGE (R14): the 1200 samples of the image. -/
  | scanImage (samples : SensorLine)
  /-- LINE_TIMER_EXPIRY (R15). -/
  | lineTimerExpiry
  /-- THREADING_INTERVAL_END (R6). -/
  | threadingIntervalEnd
  /-- PRE_ROLL_INTERVAL_END (R7). -/
  | preRollIntervalEnd
  /-- LINE_INTERVAL_END (R11). -/
  | lineIntervalEnd
  /-- REVERSE_STEP (R23). -/
  | reverseStep
  /-- ENDING_LIMIT (R22). -/
  | endingLimit
  -- performance events (chapters 3 to 7)
  /-- ENTRY_LAUNCH (R59). -/
  | entryLaunch
  /-- EXPRESSION_STEP (R75). -/
  | expressionStep
  /-- FIRE_REQUEST (R95). -/
  | fireRequest (key : Key)
  /-- DRIVE_END (R100). -/
  | driveEnd (key : Key)
  /-- RETURN_EXPIRY (R104, R107). -/
  | returnExpiry (key : Key)
  /-- DROP_MOMENT (R144). -/
  | dropMoment
  /-- GOING_DOWN_TRAVEL_END (R126). -/
  | goingDownTravelEnd (pedal : PedalName)
  /-- ASSIST_END (R128). -/
  | assistEnd (pedal : PedalName)
  /-- GOING_UP_TRAVEL_END (R128). -/
  | goingUpTravelEnd (pedal : PedalName)
  -- claim and store events (chapters 8, 9)
  /-- LEASE_END (R174). -/
  | leaseEnd
  /-- ERASE_END (R167). -/
  | eraseEnd
  /-- COMMIT_COMPLETION (R167). -/
  | commitCompletion
  /-- RESET_LINE_DEASSERTION (R206). -/
  | resetLineDeassertion
  deriving DecidableEq, Repr

end Sys2Proof
end

