-- ==== Sys2Proof/WellFormed.lean ====
section
/-! DEFINITION. When a command's operands are ones a message or an event can carry (R192, R200, Section 10.7).
A code out of its range is well-formed: the part takes it and answers OUT-OF-RANGE. -/

namespace Sys2Proof

/-- The kind codes that name a request (Section 10.7.3). -/
def requestKinds : List Nat :=
  [1, 2, 3, 4, 5, 16, 17, 18, 19, 20, 21, 22, 23, 24, 25, 32, 33, 34, 48, 49, 50, 51,
   64, 65, 66, 67, 68, 69, 80, 81, 82]

/-- The characters of a record's contents, by the selector of WRITE-RECORD (Section 10.7.3); `none` where the selector
names no record. -/
def contentsLength (selector : Byte) : Option Nat :=
  if selector = 0 then some 18
  else if selector = 1 then some 13
  else if selector = 2 then some 8
  else if selector = 3 then some 203
  else if selector = 4 then some 2
  else none

/-- Bit 0 of a LIVE-STRIKE option character: mode FIXED (Section 10.7.5). -/
def optionFixed (options : Byte) : Bool := options.getLsbD 0

/-- Bit 1 of a live request's option character: timing AT (Sections 10.7.3, 10.7.5). -/
def optionAt (options : Byte) : Bool := options.getLsbD 1

/-- Bit 2 of a LIVE-STRIKE option character: a hold length is present (Section 10.7.5). -/
def optionHold (options : Byte) : Bool := options.getLsbD 2

/-- The command's operands are those of a message of allowed length (R192), a field that the message's own options leave
out being 0. -/
def Instr.wellFormed : Instr → Bool
  | .streamLines _ count lines => lines.length == count.toNat && decide (count.toNat ≤ 19)
  | .liveStrike _ _ options velocity offset holdLength =>
      (optionFixed options || velocity == 0) && (optionAt options || offset == 0)
        && (optionHold options || holdLength == 0)
  | .liveRelease _ _ options offset => optionAt options || offset == 0
  | .livePedal _ _ options offset => optionAt options || offset == 0
  | .writeRecord _ selector _ contents => contentsLength selector == some contents.length
  | .unknownRequest _ kind body => !requestKinds.contains kind.toNat && decide (body.length ≤ 250)
  | _ => true

end Sys2Proof
end

