-- ==== Sys2Proof/Decode.lean ====
section
/-! DEFINITION. The decoder over spec/opcode_table.json's bits. No row of that table gives any bits ("fields": [] and no
"fixed" in all 71 rows), so no word spells a command. How the part decodes the messages of its links, which do have a
layout (Section 10.7), stands in Machine/Formats.lean. -/

namespace Sys2Proof

/-- The command that a word of `nbits` bits spells by the table's bits: none, since no row gives bits. -/
def decodeTableWord (_nbits _w : Nat) : Option Instr := none

end Sys2Proof
end

