-- ==== Sys2Proof/Machine/RegulationMap.lean ====
section
/-! DEFINITION. The regulation map (chapter 8): its records, their ranges and the factory map. Times are held in
units of 0.1 ms, the step period and the late limit in ms. -/

namespace Sys2Proof.Machine

/-- A key record of the map (R116, R154). -/
structure KeyRegulation where
  enabled : Bool
  latency0 : Nat
  latency1 : Nat
  latency2 : Nat
  latency3 : Nat
  shiftOffset : Nat
  dutyMinimum : Nat
  dutyMaximum : Nat
  driveLength : Nat
  holdDuty : Nat
  releaseLead : Nat
  returnTime : Nat
  deriving DecidableEq, Repr, Inhabited

/-- A pedal record of the map (R120). -/
structure PedalRegulation where
  downLead : Nat
  upLead : Nat
  downTravel : Nat
  upTravel : Nat
  driveDuty : Nat
  holdDuty : Nat
  assistDuty : Nat
  assistLength : Nat
  deriving DecidableEq, Repr, Inhabited

/-- The expression record of the map (R70); the step period in ms. -/
structure ExpressionRegulation where
  restLevel : Nat
  hookLevel : Nat
  slowRate : Nat
  fastRate : Nat
  decayRate : Nat
  stepPeriod : Nat
  accentAdd : Nat
  splitKey : Nat
  deriving DecidableEq, Repr, Inhabited

/-- The tracker record of the map (R156). -/
structure TrackerRegulation where
  centres : Vector Nat 99
  leftEdge : Nat
  rightEdge : Nat
  soundingDistance : Nat
  deriving DecidableEq, Repr, Inhabited

/-- The supply record of the map (R150); the late limit in ms. -/
structure SupplyRegulation where
  capacity : Nat
  lateLimit : Nat
  deriving DecidableEq, Repr, Inhabited

/-- A regulation map: 93 records (R152). -/
structure RegulationMap where
  keys : Vector KeyRegulation 88
  damper : PedalRegulation
  shift : PedalRegulation
  expression : ExpressionRegulation
  tracker : TrackerRegulation
  supply : SupplyRegulation
  deriving DecidableEq, Repr, Inhabited

/-- `lo ≤ n ≤ hi`: every range includes both its ends (Section 4 of 00_scope). -/
def inRange (lo hi n : Nat) : Bool := decide (lo ≤ n) && decide (n ≤ hi)

/-- The ranges of a key record and its condition between fields (R154). -/
def KeyRegulation.valid (r : KeyRegulation) : Bool :=
  inRange 20 400 r.latency0 && inRange 20 400 r.latency1 && inRange 20 400 r.latency2
    && inRange 20 400 r.latency3 && inRange 0 100 r.shiftOffset && inRange 0 255 r.dutyMinimum
    && inRange 0 255 r.dutyMaximum && decide (r.dutyMinimum ≤ r.dutyMaximum)
    && inRange 10 300 r.driveLength && inRange 0 128 r.holdDuty && inRange 0 300 r.releaseLead
    && inRange 20 200 r.returnTime

/-- The ranges of a pedal record (R120). -/
def PedalRegulation.valid (r : PedalRegulation) : Bool :=
  inRange 0 600 r.downLead && inRange 0 600 r.upLead && inRange 100 1500 r.downTravel
    && inRange 100 1500 r.upTravel && inRange 0 255 r.driveDuty && inRange 0 128 r.holdDuty
    && inRange 0 255 r.assistDuty && inRange 0 300 r.assistLength

/-- The ranges of the expression record (R70). -/
def ExpressionRegulation.valid (r : ExpressionRegulation) : Bool :=
  inRange 0 255 r.restLevel && inRange 0 255 r.hookLevel && inRange 1 8 r.slowRate
    && inRange 2 16 r.fastRate && inRange 1 8 r.decayRate && inRange 4 32 r.stepPeriod
    && inRange 0 96 r.accentAdd && inRange 30 58 r.splitKey

/-- A list of numbers is strictly increasing. -/
def strictlyIncreasing : List Nat → Bool
  | a :: b :: rest => decide (a < b) && strictlyIncreasing (b :: rest)
  | _ => true

/-- The ranges of the tracker record and its conditions between fields (R156). -/
def TrackerRegulation.valid (r : TrackerRegulation) : Bool :=
  r.centres.toList.all (inRange 0 1199) && strictlyIncreasing r.centres.toList
    && inRange 0 1199 r.leftEdge && inRange 0 1199 r.rightEdge
    && decide (r.leftEdge + 63 ≤ r.rightEdge) && inRange 48 96 r.soundingDistance

/-- The ranges of the supply record (R150). -/
def SupplyRegulation.valid (r : SupplyRegulation) : Bool :=
  inRange 8 96 r.capacity && inRange 10 250 r.lateLimit

/-- Every record of the map meets its ranges and conditions (R152). -/
def RegulationMap.valid (r : RegulationMap) : Bool :=
  r.keys.toList.all KeyRegulation.valid && r.damper.valid && r.shift.valid && r.expression.valid
    && r.tracker.valid && r.supply.valid

/-- The key's latency in a band (R88). -/
def KeyRegulation.latency (r : KeyRegulation) (band : Nat) : Nat :=
  if band = 0 then r.latency0 else if band = 1 then r.latency1
  else if band = 2 then r.latency2 else r.latency3

/-- The STRIKE lead: the largest latency plus the shift offset (R55). -/
def KeyRegulation.strikeLead (r : KeyRegulation) : Nat :=
  max (max r.latency0 r.latency1) (max r.latency2 r.latency3) + r.shiftOffset

/-- The map's record of a pedal. -/
def RegulationMap.pedal (r : RegulationMap) : PedalName → PedalRegulation
  | .damper => r.damper
  | .shift => r.shift

/-- The factory key record (R154). -/
def factoryKey : KeyRegulation where
  enabled := true
  latency0 := 200
  latency1 := 160
  latency2 := 130
  latency3 := 110
  shiftOffset := 20
  dutyMinimum := 60
  dutyMaximum := 230
  driveLength := 80
  holdDuty := 40
  releaseLead := 50
  returnTime := 60

/-- The factory damper record (R120). -/
def factoryDamper : PedalRegulation where
  downLead := 350
  upLead := 200
  downTravel := 400
  upTravel := 600
  driveDuty := 220
  holdDuty := 60
  assistDuty := 160
  assistLength := 80

/-- The factory shift record (R120). -/
def factoryShift : PedalRegulation where
  downLead := 250
  upLead := 150
  downTravel := 300
  upTravel := 400
  driveDuty := 200
  holdDuty := 50
  assistDuty := 140
  assistLength := 60

/-- The factory expression record (R70). -/
def factoryExpression : ExpressionRegulation where
  restLevel := 40
  hookLevel := 110
  slowRate := 1
  fastRate := 4
  decayRate := 2
  stepPeriod := 8
  accentAdd := 32
  splitKey := 44

/-- The factory tracker record (R156): centre 61 + 11 × track number. -/
def factoryTracker : TrackerRegulation where
  centres := Vector.ofFn fun t => 61 + 11 * t.val
  leftEdge := 28
  rightEdge := 1171
  soundingDistance := 64

/-- The factory supply record (R150). -/
def factorySupply : SupplyRegulation where
  capacity := 48
  lateLimit := 60

/-- The factory map, which profile 0 and every profile hold as they leave the factory (R154 to R156, R159). -/
def factoryMap : RegulationMap where
  keys := Vector.replicate 88 factoryKey
  damper := factoryDamper
  shift := factoryShift
  expression := factoryExpression
  tracker := factoryTracker
  supply := factorySupply

end Sys2Proof.Machine
end

