-- ==== Sys2Proof/Machine/State.lean ====
section
/-! DEFINITION. The state of the part: what each block of 00_scope Section 2 holds, the queue of waiting commands, the
reasons a step can stop, and the machine right after a POWER-ON reset of a part as it leaves the factory. -/

namespace Sys2Proof.Machine

/-! ### Stops -/

/-- The faults of the model: none. No rule of the spec stops the part: a roll fault (R24) and supply CRITICAL (R148) are
states it runs on in, so no command raises one. -/
inductive Fault where
  deriving DecidableEq, Repr

/-- The refusals of the model. -/
inductive Refusal where
  /-- Raised by an arm of `exec` whose command has no meaning yet; safe. No arm raises it. -/
  | notModelled (mnemonic : String)
  deriving DecidableEq, Repr

/-! ### Session controller (Section 1.1) -/

/-- The session state (Section 1.1). -/
inductive SessionState where
  | idle
  | free
  | preparing
  | cued
  | playing
  | starved
  | paused
  | ending
  | rewinding
  | faulted
  deriving DecidableEq, Repr, Inhabited

/-- The line source (R3). -/
inductive Source where
  | sensor
  | stream
  deriving DecidableEq, Repr, Inhabited

/-- The pause cause (Section 1.1). -/
inductive PauseCause where
  | none
  | request
  | lapse
  | supply
  deriving DecidableEq, Repr, Inhabited

/-- The fault cause (Section 1.1, R24). -/
inductive FaultCause where
  | none
  | trackLost
  | threadFault
  | sensorFault
  | rollRemoved
  deriving DecidableEq, Repr, Inhabited

/-- The resume target of PAUSED (Section 1.1). -/
inductive ResumeTarget where
  | playing
  | ending
  deriving DecidableEq, Repr, Inhabited

/-- The direction output of the roll stepper (R14, R23). -/
inductive Direction where
  | forward
  | reverse
  deriving DecidableEq, Repr, Inhabited

/-- The session record and what the line pacer and the line supply keep with it (chapter 1). Real times are in µs. -/
structure Session where
  state : SessionState
  source : Source
  pt : Nat
  /-- The part of a PT unit already elapsed, in µs (R2). -/
  ptFraction : Nat
  /-- The real time at which PT, advancing, came to its present value; what tells an arrival of this instant from one that is past
  (R75, R78; log 22). -/
  ptSince : Nat
  rollPosition : Nat
  lastPosition : Nat
  tempo : Nat
  frameIndex : Nat
  /-- The next interval to begin is index 0 (R18). -/
  newFrame : Bool
  /-- The end of the interval in progress (R6, R7, R10). -/
  intervalEnd : Option Nat
  /-- The pacer consumes the next image at its arrival (R6, R7). -/
  awaitingImage : Bool
  threadingLines : Nat
  threadingStable : Bool
  sensorBuffer : List SensorLine
  /-- The expiry of the outstanding step's line timer; absent when no step is outstanding (R14, R15). -/
  stepTimer : Option Nat
  rewindCount : Nat
  /-- The moment of the next reverse step (R23). -/
  reverseStepAt : Option Nat
  streamBuffer : List TrackLine
  streamOpen : Bool
  endingStart : Option Nat
  resumeTarget : Option ResumeTarget
  pauseCause : PauseCause
  faultCause : FaultCause
  scanStray : Counter
  rollRemoved : Counter
  direction : Direction
  /-- How many step pulses the step output has given; the model's own view of a pulse output (log 16). -/
  stepPulses : Nat
  deriving DecidableEq, Repr

/-! ### Track detector (Section 2.1) -/

/-- A hole detector (R37), with the slot-start mark of the length-classed tracks (R41). -/
inductive Hole where
  | closed
  /-- OPENING; `second` is run 2. -/
  | opening (second : Bool) (start : Nat)
  /-- OPEN. -/
  | opened (start : Nat) (slotGiven : Bool)
  | closing (start firstPaper : Nat) (slotGiven : Bool)
  deriving DecidableEq, Repr, Inhabited

/-- The track detector (Section 2.1). -/
structure Detector where
  appliedOffset : Int
  badRun : Nat
  goodRun : Nat
  holes : Vector Hole 99
  noise : Vector Nat 99
  pinhole : Counter
  ambiguous : Counter
  badLine : Counter
  deriving DecidableEq, Repr

/-! ### Action queue (Section 3.1) -/

/-- A source of actions: the roll or a link (R50, R85). -/
inductive Origin where
  | roll
  | linkA
  | linkB
  deriving DecidableEq, Repr, Inhabited

/-- The two halves of the keyboard (R69). -/
inductive HalfName where
  | bass
  | treble
  deriving DecidableEq, Repr, Inhabited

/-- The sub-kinds of an EXPRESSION entry (R50, R74). -/
inductive ExpressionKind where
  | slowOn
  | slowOff
  | fastOn
  | fastOff
  | freezeOn
  | freezeOff
  | hookToggle
  deriving DecidableEq, Repr, Inhabited

/-- The velocity mode of a strike, with the fixed velocity of FIXED (R50). -/
inductive VelocityMode where
  | expression
  | fixed (velocity : Nat)
  deriving DecidableEq, Repr, Inhabited

/-- The kind of an entry with its target and the fields that kind carries (R50). -/
inductive Action where
  | strike (key : Key) (accented : Bool) (mode : VelocityMode) (holdLength : Option Nat)
  | release (key : Key)
  | pedalDown (pedal : PedalName)
  | pedalUp (pedal : PedalName)
  | expression (kind : ExpressionKind) (half : HalfName)
  /-- SECTION. -/
  | sectionMark
  /-- END. -/
  | endMark
  deriving DecidableEq, Repr, Inhabited

/-- An entry of the action queue (R50). -/
structure Entry where
  action : Action
  origin : Origin
  sounding : Nat
  lead : Nat
  launch : Nat
  sequence : BitVec 16
  /-- The place in the order of insertion, which the sequence number loses when it wraps (R51). -/
  order : Nat
  /-- Present in entries of the roll (R50). -/
  rollPosition : Option Nat
  deriving DecidableEq, Repr, Inhabited

/-- The action queue (R49): its entries in ascending sounding time, equal times in insertion order. -/
structure Queue where
  entries : List Entry
  nextSequence : BitVec 16
  /-- How many entries have been inserted since the reset: the order of the next (R51). -/
  insertions : Nat
  rollOverrun : Counter
  deriving DecidableEq, Repr

/-! ### Expression unit (Section 4.1) -/

/-- A half record (R69). -/
structure Half where
  level : Nat
  slowOpen : Bool
  fastOpen : Bool
  frozen : Bool
  hooked : Bool
  deriving DecidableEq, Repr, Inhabited

/-- The expression unit (R69). -/
structure Expression where
  bass : Half
  treble : Half
  trim : Nat
  /-- The PT of the last step: each multiple is stepped at most once (R75). -/
  lastStep : Nat
  /-- A step at the present PT is still to be taken, whatever the step period is now: PT arrived there under an earlier one (R75,
  R78; log 22). -/
  owed : Bool
  deriving DecidableEq, Repr

/-! ### Key action unit, pedal unit, supply budget (chapters 5 to 7) -/

/-- A subset of ROLL, LINK-A and LINK-B: a holder set or a contributor set (R85). -/
structure Origins where
  roll : Bool
  linkA : Bool
  linkB : Bool
  deriving DecidableEq, Repr, Inhabited

/-- The setting of a solenoid channel (OFF or FORWARD, which is on) or a pedal bridge (R114, R119). -/
inductive Drive where
  | off
  | forward (duty : Nat)
  | reverse (duty : Nat)
  deriving DecidableEq, Repr, Inhabited

/-- A pulse-width output: its setting, the setting in force at the start of the 50 µs period in which it last changed, and
the real time of that change (R114, R131). -/
structure Output where
  setting : Drive
  before : Drive
  changedAt : Nat
  deriving DecidableEq, Repr, Inhabited

/-- A strike record (R85). -/
structure Strike where
  fire : Nat
  velocity : Nat
  band : Nat
  duty : Nat
  contributors : Origins
  accented : Bool
  deriving DecidableEq, Repr, Inhabited

/-- The states of a key (R85). -/
inductive KeyState where
  | rest
  | armed
  | wait
  | drive
  | hold
  | shed
  /-- RETURN. -/
  | returning
  deriving DecidableEq, Repr, Inhabited

/-- A key record (R85), with its solenoid channel (R114). Real times are in µs. -/
structure KeyRecord where
  state : KeyState
  holders : Origins
  armed : Option Strike
  pending : Option Strike
  driveEnd : Option Nat
  holdStart : Option Nat
  /-- The return end while the return timer runs; absent while it is stopped. -/
  returnEnd : Option Nat
  requestMoment : Option Nat
  channel : Output
  deriving DecidableEq, Repr, Inhabited

/-- The states of a pedal (R119). -/
inductive PedalState where
  | up
  | goingDown
  | down
  | goingUp
  deriving DecidableEq, Repr, Inhabited

/-- A pedal's movement: travel start, the estimate at that time, and travel end (R119). -/
structure Travel where
  start : Nat
  estimate : Nat
  finish : Nat
  deriving DecidableEq, Repr, Inhabited

/-- A pedal record (R119). Waiting is yes exactly when the request moment is present. Real times are in µs. -/
structure PedalRecord where
  state : PedalState
  requestMoment : Option Nat
  holders : Origins
  travel : Option Travel
  /-- The assist end while the assist runs. -/
  assistEnd : Option Nat
  bridge : Output
  deriving DecidableEq, Repr, Inhabited

/-- The supply monitor level (R136). -/
inductive MonitorLevel where
  | normal
  | low
  | critical
  deriving DecidableEq, Repr, Inhabited

/-- Who asks the budget (R136). -/
inductive Requester where
  | key (key : Key)
  | pedal (pedal : PedalName)
  deriving DecidableEq, Repr, Inhabited

/-- A wait list entry (R136). The cost follows from the requester (`Requester.cost`). -/
structure WaitEntry where
  requester : Requester
  requestMoment : Nat
  dropMoment : Nat
  deriving DecidableEq, Repr, Inhabited

/-- The key action unit, the pedal unit, the supply budget, and the pending notice sets of the two links, which every block
raises notices in. The capacity and the late limit have their one home in the working map (R150). -/
structure Instrument where
  keys : Vector KeyRecord 88
  accepted : Counter
  fired : Counter
  merged : Counter
  dropped : Counter
  discarded : Counter
  late : Counter
  cut : Counter
  shed : Counter
  earlyRelease : Counter
  damper : PedalRecord
  shift : PedalRecord
  pedalDropped : Counter
  monitor : MonitorLevel
  unitsInUse : Nat
  damperDown : Bool
  waitList : List WaitEntry
  noticesA : Notices
  noticesB : Notices
  deriving DecidableEq, Repr

/-- The running performance: real time in µs since the last reset (log 3), and the blocks that play. -/
structure Performance where
  now : Nat
  session : Session
  detector : Detector
  queue : Queue
  expression : Expression
  instrument : Instrument
  deriving DecidableEq, Repr

/-! ### Profile store (R159) -/

/-- The protection states (R159). -/
inductive Protection where
  /-- OPEN. -/
  | open_
  | guarded
  | lockedUntilPower
  | fixed
  deriving DecidableEq, Repr, Inhabited

/-- A stored profile (R159); INTACT when `intact`, else INCOMPLETE. -/
structure Profile where
  contents : RegulationMap
  intact : Bool
  protection : Protection
  deriving DecidableEq, Repr, Inhabited

/-- A commit in progress (R166, R167): ERASING until `programming`, then PROGRAMMING. -/
structure Commit where
  profile : Fin 4
  snapshot : RegulationMap
  boot : Bool
  acceptedAt : Nat
  programming : Bool
  deriving DecidableEq, Repr

/-- The profile store (R159); the store state is IDLE when no commit is in progress. -/
structure Store where
  profiles : Vector Profile 4
  bootChoice : Fin 4
  active : Fin 4
  bootFallback : Bool
  commit : Option Commit
  deriving DecidableEq, Repr

/-! ### Claim unit (R171) -/

/-- The claim while a link holds it (R171); the expected phase is 2 when `secondPhase`, else 1. -/
structure HeldClaim where
  link : Link
  leaseEnd : Nat
  secondPhase : Bool
  deriving DecidableEq, Repr

/-- The admission (R171). -/
inductive Admission where
  | none
  | holder
  | both
  deriving DecidableEq, Repr, Inhabited

/-- The claim record (R171). -/
structure Claim where
  held : Option HeldClaim
  admission : Admission
  deriving DecidableEq, Repr

/-! ### Link controllers (R187) -/

/-- The link rates (R187). -/
inductive Rate where
  | r250k
  | r500k
  | r1M
  | r2M
  deriving DecidableEq, Repr, Inhabited

/-- The reasons of a discard record (R192). -/
inductive DiscardReason where
  | noise
  | framing
  | mark
  | truncated
  | check
  | badLength
  deriving DecidableEq, Repr, Inhabited

/-- The receiver with the message in reception (R187, R191): the header kind, the length, the body received so far in order,
and the running sum, which R191 takes modulo 256 at the check. -/
inductive Receiver where
  | waitBreak
  | awaitHeader
  | awaitLength (kind : Byte) (sum : Byte)
  | body (kind length : Byte) (received : List Byte) (sum : Byte)
  | awaitCheck (kind length : Byte) (received : List Byte) (sum : Byte)
  deriving DecidableEq, Repr, Inhabited

/-- What a request slot holds (R187, R192). -/
inductive Item where
  | request (command : Instr)
  | discard (reason : DiscardReason) (kind : Byte)
  deriving DecidableEq, Repr

/-- An action that a request calls for after its response (R194). -/
inductive AfterAction where
  | rate (rate : Rate)
  | standby
  | linkReset
  deriving DecidableEq, Repr

/-- A taken request slot: its item, whether its response has been made, and the action after the response (R193, R194). -/
structure Slot where
  item : Item
  answered : Bool
  after : Option AfterAction
  deriving DecidableEq, Repr

/-- The result codes (R195). -/
inductive Result where
  | ok
  | accepted
  | notHolder
  | heldByOther
  | alreadyHolder
  | wrongPhase
  | notAdmitted
  | badState
  | outOfRange
  | queueFull
  | clockStopped
  | storeBusy
  | protected_
  | profileDamaged
  | supplyCritical
  | unknownRequest
  deriving DecidableEq, Repr, Inhabited

/-- A response or a FRAME-ERROR message (R195). -/
inductive Message where
  | response (kind : Byte) (result : Result) (data : List Byte)
  | frameError (kind : Byte) (reason : DiscardReason)
  deriving DecidableEq, Repr

/-- A message in transmission: a response or FRAME-ERROR message with its overrun indication, or a notice (R195, R196). -/
inductive Transmission where
  | message (message : Message) (overrun : Bool)
  | notice (kinds : Notices)
  deriving DecidableEq, Repr

/-- A link controller (R187). Its pending notice set stands in `Instrument.noticesA` or `noticesB`. -/
structure LinkRecord where
  up : Bool
  rate : Rate
  receiver : Receiver
  breakArmed : Bool
  /-- The taken slots in order of acceptance; at most 2. -/
  slots : List Slot
  /-- The messages that wait for transmission, in the order they joined. -/
  transmitQueue : List Message
  sending : Option Transmission
  overrunFlag : Bool
  mask : Notices
  frameError : Counter
  overrun : Counter
  stray : Counter
  /-- The level of the receive line, an input. -/
  lineHigh : Bool
  /-- Actions whose response has ended and which are now to be carried out (R194). -/
  due : List AfterAction
  deriving DecidableEq, Repr

/-! ### Status and power (chapter 11) -/

/-- The power state (R201, R204, R205); `held` while the reset line keeps the part in reset (R206). -/
inductive PowerState where
  | running
  | standby
  | waking
  | held
  deriving DecidableEq, Repr, Inhabited

/-- The kinds of reset (R206). -/
inductive ResetCause where
  | powerOn
  | supplyFail
  | resetLine
  | linkReset
  deriving DecidableEq, Repr, Inhabited

/-- The power state, the end of stabilisation, and the reset cause record (R205, R206). -/
structure Power where
  state : PowerState
  wakeEnd : Option Nat
  resetCause : ResetCause
  fromStandby : Bool
  deriving DecidableEq, Repr

/-- The levels of the inputs that the part watches or samples (00_scope Section 6). -/
structure Pins where
  rollPresent : Bool
  serviceLine : Bool
  lowIndication : Bool
  criticalIndication : Bool
  resetLine : Bool
  deriving DecidableEq, Repr

/-- The state of the part. -/
structure State where
  perf : Performance
  map : RegulationMap
  store : Store
  claim : Claim
  linkA : LinkRecord
  linkB : LinkRecord
  power : Power
  pins : Pins
  /-- The model's own counter that the free values of Config are applied to (log 12). -/
  freeCount : Nat
  /-- The commands that are waiting, first in, first out. -/
  pending : List Instr
  deriving DecidableEq, Repr

/-! ### Reset values -/

/-- No source. -/
def Origins.empty : Origins := ⟨false, false, false⟩

/-- An output that has been off since the reset. -/
def Output.reset : Output := ⟨.off, .off, 0⟩

/-- A key record after any reset (R85). -/
def KeyRecord.reset : KeyRecord where
  state := .rest
  holders := .empty
  armed := none
  pending := none
  driveEnd := none
  holdStart := none
  returnEnd := none
  requestMoment := none
  channel := .reset

/-- A pedal record after any reset (R119). -/
def PedalRecord.reset : PedalRecord where
  state := .up
  requestMoment := none
  holders := .empty
  travel := none
  assistEnd := none
  bridge := .reset

/-- The session record after any reset (Section 1.1, R1). -/
def Session.reset : Session where
  state := .idle
  source := .sensor
  pt := 0
  ptFraction := 0
  ptSince := 0
  rollPosition := 0
  lastPosition := 0
  tempo := 80000
  frameIndex := 0
  newFrame := false
  intervalEnd := none
  awaitingImage := false
  threadingLines := 0
  threadingStable := false
  sensorBuffer := []
  stepTimer := none
  rewindCount := 0
  reverseStepAt := none
  streamBuffer := []
  streamOpen := false
  endingStart := none
  resumeTarget := none
  pauseCause := .none
  faultCause := .none
  scanStray := 0
  rollRemoved := 0
  direction := .forward
  stepPulses := 0

/-- The track detector after any reset (Section 2.1, R47). -/
def Detector.reset : Detector where
  appliedOffset := 0
  badRun := 0
  goodRun := 0
  holes := Vector.replicate 99 .closed
  noise := Vector.replicate 99 0
  pinhole := 0
  ambiguous := 0
  badLine := 0

/-- The action queue after any reset (R49). -/
def Queue.reset : Queue := ⟨[], 0, 0, 0⟩

/-- A half at rest: the session-start and reset values (R69, R72). -/
def Half.atRest (restLevel : Nat) : Half := ⟨restLevel, false, false, false, false⟩

/-- The expression unit after any reset, given the rest level of the map that the start-up load chose (R69). -/
def Expression.reset (restLevel : Nat) : Expression := ⟨.atRest restLevel, .atRest restLevel, 7, 0, false⟩

/-- The key action unit, the pedal unit and the budget after any reset, given the monitor level the input reports
(R85, R117, R119, R136). -/
def Instrument.reset (level : MonitorLevel) : Instrument where
  keys := Vector.replicate 88 .reset
  accepted := 0
  fired := 0
  merged := 0
  dropped := 0
  discarded := 0
  late := 0
  cut := 0
  shed := 0
  earlyRelease := 0
  damper := .reset
  shift := .reset
  pedalDropped := 0
  monitor := level
  unitsInUse := 0
  damperDown := false
  waitList := []
  noticesA := 0
  noticesB := 0

/-- The performance after any reset. -/
def Performance.reset (restLevel : Nat) (level : MonitorLevel) : Performance where
  now := 0
  session := .reset
  detector := .reset
  queue := .reset
  expression := .reset restLevel
  instrument := .reset level

/-- The claim record after any reset (R171). -/
def Claim.reset : Claim := ⟨none, .both⟩

/-- A link record after any reset (R187), given the level of its receive line. -/
def LinkRecord.reset (lineHigh : Bool) : LinkRecord where
  up := false
  rate := .r500k
  receiver := .waitBreak
  breakArmed := true
  slots := []
  transmitQueue := []
  sending := none
  overrunFlag := false
  mask := BitVec.allOnes 12
  frameError := 0
  overrun := 0
  stray := 0
  lineHigh := lineHigh
  due := []

/-- The profile store as it leaves the factory, after its first start-up load (R159, R169). -/
def Store.factory : Store where
  profiles := #v[⟨factoryMap, true, .fixed⟩, ⟨factoryMap, true, .open_⟩, ⟨factoryMap, true, .open_⟩, ⟨factoryMap, true, .open_⟩]
  bootChoice := 0
  active := 0
  bootFallback := false
  commit := none

/-- The machine right after a POWER-ON reset of a part as it leaves the factory (R1, R206, R207; logs 1, 2). -/
def State.reset : State where
  perf := .reset factoryExpression.restLevel .normal
  map := factoryMap
  store := .factory
  claim := .reset
  linkA := .reset true
  linkB := .reset true
  power := ⟨.running, none, .powerOn, false⟩
  pins := ⟨false, false, false, false, false⟩
  freeCount := 0
  pending := []

end Sys2Proof.Machine
end

