-- ==== Sys2Proof/Config.lean ====
section
/-! DEFINITION. The free values: what the spec leaves open and a run nevertheless has. Each is a constant with no body, so
nothing can be proved about its value. -/

namespace Sys2Proof

/-- The reason of the discard of a character that is both NOISY and a framing error, by its samples: NOISE when true, FRAMING
when false. R191 says "discard NOISE or FRAMING" and does not say which (log 11). -/
opaque Config.noisyFramingIsNoise : BitVec 33 → Bool

/-- The contents of a profile whose commit a reset cut short, applied to the free counter: R168 says "its contents are not
defined" (log 12). -/
opaque Config.undefinedContents : Nat → Machine.RegulationMap

/-- Which of several timers that fall due together is taken first on an empty queue, applied to the free counter: the spec
says "either may be taken first" (log 5). -/
opaque Config.dueChoice : Nat → Nat

end Sys2Proof
end

