-- ==== Sys2Proof/Machine/Flags.lean ====
section
/-! DEFINITION. The notice kinds and the pending notice sets (R196), and the counters that a change raises. -/

namespace Sys2Proof.Machine

/-- The twelve notice kinds (R196). -/
inductive NoticeKind where
  | rollOverrun
  | late
  | dropped
  | cut
  | sectionMark
  | rollEnd
  | starved
  | fault
  | claimLapsed
  | yieldAsked
  | supplyLow
  | profileDone
  deriving DecidableEq, Repr, Inhabited

/-- The kind's bit in a notice kind set (Section 10.7.3). -/
def noticeBit : NoticeKind → Notices
  | .rollOverrun => 0x001
  | .late => 0x002
  | .dropped => 0x004
  | .cut => 0x008
  | .sectionMark => 0x010
  | .rollEnd => 0x020
  | .starved => 0x040
  | .fault => 0x080
  | .claimLapsed => 0x100
  | .yieldAsked => 0x200
  | .supplyLow => 0x400
  | .profileDone => 0x800

/-- Make a kind pending on both links; a kind already pending stays pending once (R196). -/
def raiseBoth (k : NoticeKind) (i : Instrument) : Instrument :=
  { i with noticesA := i.noticesA ||| noticeBit k, noticesB := i.noticesB ||| noticeBit k }

/-- Make a kind pending on one link (R177). -/
def raiseOn (l : Link) (k : NoticeKind) (i : Instrument) : Instrument :=
  match l with
  | .a => { i with noticesA := i.noticesA ||| noticeBit k }
  | .b => { i with noticesB := i.noticesB ||| noticeBit k }

/-- The pending notice set of a link (R187). -/
def pendingNotices (l : Link) (i : Instrument) : Notices :=
  match l with
  | .a => i.noticesA
  | .b => i.noticesB

/-- Set the pending notice set of a link (R196). -/
def setPendingNotices (l : Link) (n : Notices) (i : Instrument) : Instrument :=
  match l with
  | .a => { i with noticesA := n }
  | .b => { i with noticesB := n }

/-- One count, or none. -/
def countIf (b : Bool) : Counter := if b then 1 else 0

/-- Count strikes DISCARDED (R117). -/
def countDiscarded (n : Nat) (i : Instrument) : Instrument :=
  { i with discarded := i.discarded + BitVec.ofNat 32 n }

end Sys2Proof.Machine
end

