-- ==== Sys2Proof/Machine/Ops.lean ====
section
/-! DEFINITION. The shared operations: sets of sources, pulse-width outputs, the passing of time, the access to the blocks of
the state, and the taking and answering of a request (R193, R194). The part has no exception: what takes the place of an
exception entry is the answer of a refused request (`refuse`) and a change of the session state (Machine/Session.lean). -/

namespace Sys2Proof.Machine

/-- The highest PT (Section 4 of 00_scope). -/
def ptMax : Nat := 4294967295

/-- The highest roll position (Section 4 of 00_scope). -/
def positionMax : Nat := 4194303

/-! ### Sets of sources -/

/-- The link as a source of actions (00_scope Section 5). -/
def originOf : Link → Origin
  | .a => .linkA
  | .b => .linkB

/-- The source is in the set. -/
def Origins.has (o : Origins) : Origin → Bool
  | .roll => o.roll
  | .linkA => o.linkA
  | .linkB => o.linkB

/-- The set with the source. -/
def Origins.insert (o : Origins) : Origin → Origins
  | .roll => { o with roll := true }
  | .linkA => { o with linkA := true }
  | .linkB => { o with linkB := true }

/-- The set without the source. -/
def Origins.erase (o : Origins) : Origin → Origins
  | .roll => { o with roll := false }
  | .linkA => { o with linkA := false }
  | .linkB => { o with linkB := false }

/-- The set is empty. -/
def Origins.isEmpty (o : Origins) : Bool := !(o.roll || o.linkA || o.linkB)

/-- The union of two sets (R90). -/
def Origins.union (o p : Origins) : Origins := ⟨o.roll || p.roll, o.linkA || p.linkA, o.linkB || p.linkB⟩

/-! ### Pulse-width outputs (R114, R131) -/

/-- The output's period, in µs. -/
def outputPeriod : Nat := 50

/-- Change the setting: the period already begun keeps what it began with (R114, R131). -/
def Output.switch (o : Output) (now : Nat) (d : Drive) : Output where
  setting := d
  before := if o.changedAt / outputPeriod < now / outputPeriod then o.setting else o.before
  changedAt := now

/-- Stop conducting at once, partway through a period if need be (R131, R134). -/
def Output.stopAtOnce (_ : Output) (now : Nat) : Output := ⟨.off, .off, now⟩

/-- What drives the output in the period that holds real time `t`, a time at or after its last change. -/
def Output.driveAt (o : Output) (t : Nat) : Drive :=
  if o.changedAt / outputPeriod < t / outputPeriod then o.setting else o.before

/-- How long an output at a duty conducts in each period: duty × 50 / 255, in whole µs, rounded down as every division is (R114, R131,
Section 4 of 00_scope). -/
def conductingTime (duty : Nat) : Nat := duty * outputPeriod / 255

/-- The output conducts in the µs that begins at real time `t`: from the start of the period for its conducting time (R114, R131). -/
def Output.conducts (o : Output) (t : Nat) : Bool :=
  match o.driveAt t with
  | .off => false
  | .forward d => decide (t % outputPeriod < conductingTime d)
  | .reverse d => decide (t % outputPeriod < conductingTime d)

/-! ### Time -/

/-- The clock is RUNNING in FREE, PLAYING and ENDING, and STANDING in every other state (R2). -/
def SessionState.clockRuns : SessionState → Bool
  | .free => true
  | .playing => true
  | .ending => true
  | _ => false

/-- PT after some µs, with the fraction kept, and the moment at which it came to its value (R2). -/
def Session.tick (now dt : Nat) (s : Session) : Session :=
  let pt := min ptMax (s.pt + (s.ptFraction + dt) / 100)
  { s with
    pt := pt
    ptFraction := (s.ptFraction + dt) % 100
    ptSince := if s.pt < pt then now + ((pt - s.pt) * 100 - s.ptFraction) else s.ptSince }

/-- Let real time pass, in µs. While the clock runs PT advances by one for each 0.1 ms, the fraction is kept, and PT holds at
its highest value (R2). -/
def advance (dt : Nat) (p : Performance) : Performance :=
  if p.session.state.clockRuns then { p with now := p.now + dt, session := p.session.tick p.now dt }
  else { p with now := p.now + dt }

/-- Let real time pass up to a moment; a moment already past changes nothing (log 4). -/
def advanceTo (t : Nat) (p : Performance) : Performance := advance (t - p.now) p

/-- The real time at which PT reaches a value: now when it has, absent when the clock stands short of it (R2). -/
def ptMoment (target : Nat) (p : Performance) : Option Nat :=
  if target ≤ p.session.pt then some p.now
  else if p.session.state.clockRuns && decide (target ≤ ptMax) then
    some (p.now + ((target - p.session.pt) * 100 - p.session.ptFraction))
  else none

/-- What the instrument blocks read at one instant: real time, PT and the working map. -/
structure Moment where
  now : Nat
  pt : Nat
  map : RegulationMap

/-- What the performance reads from outside it: the working map and the roll-present line. -/
structure Env where
  map : RegulationMap
  rollPresent : Bool

/-- The moment of a performance. -/
def Performance.moment (e : Env) (p : Performance) : Moment := ⟨p.now, p.session.pt, e.map⟩

/-- Change the instrument of a performance at its moment. -/
def onInstrument (e : Env) (f : Moment → Instrument → Instrument) (p : Performance) : Performance :=
  { p with instrument := f (p.moment e) p.instrument }

/-- Change the session record. -/
def onSession (f : Session → Session) (p : Performance) : Performance := { p with session := f p.session }

/-! ### The blocks of the state -/

/-- What the performance reads from the rest of the state. -/
def State.env (s : State) : Env := ⟨s.map, s.pins.rollPresent⟩

/-- Change the performance and nothing else. -/
def onPerf (f : Env → Performance → Performance) (s : State) : State := { s with perf := f s.env s.perf }

/-- A link's record. -/
def State.link (s : State) : Link → LinkRecord
  | .a => s.linkA
  | .b => s.linkB

/-- Set a link's record. -/
def setLink (l : Link) (r : LinkRecord) (s : State) : State :=
  match l with
  | .a => { s with linkA := r }
  | .b => { s with linkB := r }

/-- The part runs: not in standby, stabilisation or reset. -/
def State.running (s : State) : Bool := decide (s.power.state = .running)

/-- The link holds the session claim (R171). -/
def State.holds (s : State) (l : Link) : Bool :=
  match s.claim.held with
  | some h => decide (h.link = l)
  | none => false

/-- The other link holds the session claim (R180). -/
def State.otherHolds (s : State) (l : Link) : Bool :=
  match s.claim.held with
  | some h => decide (h.link ≠ l)
  | none => false

/-! ### Requests: slots, execution, responses (R193 to R195) -/

/-- What the execution of a request gives for its response (R195). -/
structure Reply where
  result : Result
  data : List Byte
  after : Option AfterAction

/-- The answer of a request that is not answered OK: no data, and nothing after it (R195). -/
def refuse (r : Result) : Reply := ⟨r, [], none⟩

/-- The answer OK with data (R195). -/
def okWith (data : List Byte) : Reply := ⟨.ok, data, none⟩

/-- The answer OK. -/
def okReply : Reply := okWith []

/-- A command's header kind (Section 10.7.3); 0 for a command that is no request. -/
def requestKind : Instr → Byte
  | .claim _ => 1
  | .renew _ _ => 2
  | .yieldClaim _ => 3
  | .askYield _ => 4
  | .setAdmission _ _ => 5
  | .selectSource _ _ => 16
  | .free _ => 17
  | .prepare _ => 18
  | .play _ => 19
  | .pause _ => 20
  | .stop _ => 21
  | .setTempo _ _ => 22
  | .streamLines _ _ _ => 23
  | .streamClose _ => 24
  | .setTrim _ _ => 25
  | .liveStrike _ _ _ _ _ _ => 32
  | .liveRelease _ _ _ _ => 33
  | .livePedal _ _ _ _ => 34
  | .writeRecord _ _ _ _ => 48
  | .loadProfile _ _ _ => 49
  | .commitProfile _ _ _ => 50
  | .setProtection _ _ _ => 51
  | .readStatus _ => 64
  | .readCounters _ _ => 65
  | .clearCounters _ => 66
  | .readKey _ _ => 67
  | .readQueue _ => 68
  | .standby _ => 69
  | .setNoticeMask _ _ => 80
  | .setLinkRate _ _ => 81
  | .linkReset _ => 82
  | .unknownRequest _ kind _ => kind
  | _ => 0

/-- Offer an item to the slots: it takes a free one, a discard record counting FRAME-ERROR, or it is lost to OVERRUN
(R192, R193). -/
def offer (item : Item) (r : LinkRecord) : LinkRecord :=
  if r.slots.length < 2 then
    { r with
      slots := r.slots ++ [⟨item, false, none⟩]
      frameError := r.frameError + countIf (match item with | .discard _ _ => true | .request _ => false) }
  else { r with overrun := r.overrun + 1, overrunFlag := true }

/-- The oldest held item whose response has not yet been made (R194). -/
def nextItem : List Slot → Option Item
  | [] => none
  | x :: rest => if x.answered then nextItem rest else some x.item

/-- Mark the oldest held item that has no response as answered, with the action after its response. -/
def markAnswered (after : Option AfterAction) : List Slot → List Slot
  | [] => []
  | x :: rest =>
    if x.answered then x :: markAnswered after rest
    else ⟨x.item, true, after⟩ :: rest

/-- Begin the next transmission when none is in progress and no action that follows a response is still to be carried out: the
message carries the overrun indication and the flag becomes no (R194, R195; log 25). -/
def startTransmission (r : LinkRecord) : LinkRecord :=
  match r.sending, r.due, r.transmitQueue with
  | none, [], m :: rest =>
    { r with transmitQueue := rest, sending := some (.message m r.overrunFlag), overrunFlag := false }
  | _, _, _ => r

/-- The response of the item taken joins the back of the transmit queue (R194). -/
def answer (m : Message) (after : Option AfterAction) (r : LinkRecord) : LinkRecord :=
  startTransmission
    { r with slots := markAnswered after r.slots, transmitQueue := r.transmitQueue ++ [m] }

/-- Execute the item that is next on the link, and make its response (R194). -/
def execute (l : Link) (c : Instr) (run : State → Reply × State) (s : State) : State :=
  let out := run s
  setLink l (answer (.response (requestKind c) out.1.result out.1.data) out.1.after (out.2.link l)) out.2

/-- Offer a request, or the BAD-LENGTH discard of a body that R192 does not allow. -/
def offerRequest (l : Link) (c : Instr) (s : State) : State :=
  setLink l
    (offer (if c.wellFormed then .request c else .discard .badLength (requestKind c)) (s.link l)) s

/-- A request on a link (R181, R192 to R194; log 7). A link that is DOWN or a part that does not run takes none. When the
request is the next held item it is executed. Otherwise the command is its arrival: it is offered to the slots, and executed
at once when it has taken one and no earlier item waits for its response. -/
def request (l : Link) (c : Instr) (run : State → Reply × State) (s : State) : State :=
  if (s.link l).up && s.running then
    if nextItem (s.link l).slots = some (.request c) then execute l c run s
    else if c.wellFormed && (nextItem (s.link l).slots).isNone && decide ((s.link l).slots.length < 2) then
      execute l c run (offerRequest l c s)
    else offerRequest l c s
  else s

end Sys2Proof.Machine
end

