-- ==== Sys2Proof/Machine/Operands.lean ====
section
/-! DEFINITION. The fields of a request as the part reads them from their characters (R200, Section 10.7): codes, numbers, and the
record contents of WRITE-RECORD. A reader answers `none` where the value is out of its field's range (R153, R200). -/

namespace Sys2Proof.Machine

/-! ### Codes (Section 10.7.3) -/

/-- A source code. -/
def sourceOf (b : Byte) : Option Source :=
  if b = 0 then some .sensor else if b = 1 then some .stream else none

/-- An admission code. -/
def admissionOf (b : Byte) : Option Admission :=
  if b = 0 then some .none else if b = 1 then some .holder else if b = 2 then some .both else none

/-- A protection state code. -/
def protectionOf (b : Byte) : Option Protection :=
  if b = 0 then some .open_ else if b = 1 then some .guarded
  else if b = 2 then some .lockedUntilPower else if b = 3 then some .fixed else none

/-- A link rate code. -/
def rateOf (b : Byte) : Option Rate :=
  if b = 0 then some .r250k else if b = 1 then some .r500k
  else if b = 2 then some .r1M else if b = 3 then some .r2M else none

/-- A yes or no code. -/
def flagOf (b : Byte) : Option Bool := if b = 0 then some false else if b = 1 then some true else none

/-- A key number, 1 to 88. -/
def keyOf (b : Byte) : Option Key :=
  if h : 1 ≤ b.toNat ∧ b.toNat ≤ 88 then some ⟨b.toNat - 1, by omega⟩ else none

/-- A pedal code. -/
def pedalOf (b : Byte) : Option PedalName :=
  if b = 0 then some .damper else if b = 1 then some .shift else none

/-- A profile number, 0 to 3. -/
def profileOf (b : Byte) : Option (Fin 4) :=
  if h : b.toNat < 4 then some ⟨b.toNat, h⟩ else none

/-- A notice kind set; bits beyond the twelve name no kind (R197). -/
def noticesOf (w : BitVec 16) : Option Notices :=
  if w.toNat < 4096 then some (w.setWidth 12) else none

/-- The track line of 13 characters: bit `t` is track `t`; bits beyond track 98 are ignored (R200, Section 10.7.4). -/
def trackLineOf (w : BitVec 104) : TrackLine := w.setWidth 99

/-! ### Option characters (R200, Section 10.7.5) -/

/-- The unused bits of a LIVE-STRIKE option character are 0. -/
def strikeOptionsValid (options : Byte) : Bool := decide (options.toNat < 8)

/-- The unused bits of a LIVE-RELEASE option character are 0: bit 1 alone is used. -/
def releaseOptionsValid (options : Byte) : Bool := decide (options &&& 0xFD = 0)

/-- The unused bits of a LIVE-PEDAL option character are 0: bits 0 and 1 are used. -/
def pedalOptionsValid (options : Byte) : Bool := decide (options.toNat < 4)

/-- Bit 0 of a LIVE-PEDAL option character: the direction is UP. -/
def optionUp (options : Byte) : Bool := options.getLsbD 0

/-! ### Record contents (R153 to R156, R70, R120, R150; Sections 10.7.3, 10.7.6) -/

/-- The number in one character of the contents. -/
def charAt (l : List Byte) (i : Nat) : Nat := (l.getD i 0).toNat

/-- The number in two characters of the contents, least significant first (Section 10.7). -/
def wordAt (l : List Byte) (i : Nat) : Nat := charAt l i + 256 * charAt l (i + 1)

/-- The record when it is in range. -/
def ifValid {α : Type} (valid : α → Bool) (r : α) : Option α := if valid r then some r else none

/-- A key record (Section 10.7.6). -/
def keyRecordOf (l : List Byte) : Option KeyRegulation :=
  match flagOf (l.getD 0 0) with
  | none => none
  | some enabled =>
    ifValid KeyRegulation.valid
      { enabled := enabled
        latency0 := wordAt l 1
        latency1 := wordAt l 3
        latency2 := wordAt l 5
        latency3 := wordAt l 7
        shiftOffset := charAt l 9
        dutyMinimum := charAt l 10
        dutyMaximum := charAt l 11
        driveLength := wordAt l 12
        holdDuty := charAt l 14
        releaseLead := wordAt l 15
        returnTime := charAt l 17 }

/-- A pedal record, its fields in the order of R120. -/
def pedalRecordOf (l : List Byte) : Option PedalRegulation :=
  ifValid PedalRegulation.valid
    { downLead := wordAt l 0
      upLead := wordAt l 2
      downTravel := wordAt l 4
      upTravel := wordAt l 6
      driveDuty := charAt l 8
      holdDuty := charAt l 9
      assistDuty := charAt l 10
      assistLength := wordAt l 11 }

/-- The expression record, its fields in the order of R70. -/
def expressionRecordOf (l : List Byte) : Option ExpressionRegulation :=
  ifValid ExpressionRegulation.valid
    { restLevel := charAt l 0
      hookLevel := charAt l 1
      slowRate := charAt l 2
      fastRate := charAt l 3
      decayRate := charAt l 4
      stepPeriod := charAt l 5
      accentAdd := charAt l 6
      splitKey := charAt l 7 }

/-- The tracker record: 99 centres, the two edges, and D (R156). -/
def trackerRecordOf (l : List Byte) : Option TrackerRegulation :=
  ifValid TrackerRegulation.valid
    { centres := Vector.ofFn fun t => wordAt l (2 * t.val)
      leftEdge := wordAt l 198
      rightEdge := wordAt l 200
      soundingDistance := charAt l 202 }

/-- The supply record, its fields in the order of R150. -/
def supplyRecordOf (l : List Byte) : Option SupplyRegulation :=
  ifValid SupplyRegulation.valid { capacity := charAt l 0, lateLimit := charAt l 1 }

/-- A record of the map with its new contents (R153). -/
inductive RecordWrite where
  | key (k : Key) (r : KeyRegulation)
  | pedal (p : PedalName) (r : PedalRegulation)
  | expression (r : ExpressionRegulation)
  | tracker (r : TrackerRegulation)
  | supply (r : SupplyRegulation)
  deriving DecidableEq, Repr

/-- The record that a WRITE-RECORD names, with its contents; `none` where a value is out of range. The index of a record with no
index must be 0 (R153, R200). -/
def recordOf (selector index : Byte) (contents : List Byte) : Option RecordWrite :=
  if selector = 0 then
    match keyOf index, keyRecordOf contents with
    | some k, some r => some (.key k r)
    | _, _ => none
  else if selector = 1 then
    match pedalOf index, pedalRecordOf contents with
    | some p, some r => some (.pedal p r)
    | _, _ => none
  else if index ≠ 0 then none
  else if selector = 2 then (expressionRecordOf contents).map .expression
  else if selector = 3 then (trackerRecordOf contents).map .tracker
  else if selector = 4 then (supplyRecordOf contents).map .supply
  else none

/-- The map with the record replaced (R153). -/
def RegulationMap.write (m : RegulationMap) : RecordWrite → RegulationMap
  | .key k r => { m with keys := m.keys.set k r }
  | .pedal .damper r => { m with damper := r }
  | .pedal .shift r => { m with shift := r }
  | .expression r => { m with expression := r }
  | .tracker r => { m with tracker := r }
  | .supply r => { m with supply := r }

/-! ### Numbers in characters (Section 10.7) -/

/-- A number in `n` characters, least significant first. -/
def leBytes : Nat → Nat → List Byte
  | 0, _ => []
  | n + 1, v => BitVec.ofNat 8 v :: leBytes n (v / 256)

/-- The number that characters give, least significant first. -/
def leNat : List Byte → Nat
  | [] => 0
  | b :: rest => b.toNat + 256 * leNat rest

/-- The check of a chain of checks: the first that fails gives the response, and the request changes nothing. -/
def require (test : State → Bool) (r : Result) (next : State → Reply × State) (s : State) : Reply × State :=
  if test s then next s else (refuse r, s)

/-- The value check of a chain of checks: a field that names no value is OUT-OF-RANGE (R200). -/
def requireValue {α : Type} (v : Option α) (next : α → State → Reply × State) (s : State) : Reply × State :=
  match v with
  | some x => next x s
  | none => (refuse .outOfRange, s)

end Sys2Proof.Machine
end

