-- ==== Sys2Proof/Machine/Detector.lean ====
section
/-! DEFINITION. The track detector (chapter 2): edge tracking, track windows, hole detection, the events of a line, and the
closing of the holes of a drained stream. -/

namespace Sys2Proof.Machine

/-! ### Hole events (R40) -/

/-- The kinds of a hole event (R40). -/
inductive EventKind where
  | holeStart
  | holeEnd
  | punch
  | slotStart
  | slotEnd
  deriving DecidableEq, Repr, Inhabited

/-- A hole event (R40). -/
structure HoleEvent where
  kind : EventKind
  track : Track
  position : Nat
  reading : Nat
  length : Option Nat
  accented : Bool
  deriving DecidableEq, Repr

/-- What a track emits (R40). -/
inductive TrackClass where
  | ordinary
  | lengthClassed
  | accent
  deriving DecidableEq, Repr, Inhabited

/-- The class of a track (R40): B-HOLD 2, T-HOLD 95 and CUE 98; B-ACCENT 3 and T-ACCENT 94; the rest. -/
def trackClass (t : Track) : TrackClass :=
  if t.val = 2 ∨ t.val = 95 ∨ t.val = 98 then .lengthClassed
  else if t.val = 3 ∨ t.val = 94 then .accent
  else .ordinary

/-! ### Finding the paper (R29 to R33) -/

/-- Eight PAPER samples from sample `i` on: the shortest paper run (R29). -/
def paperRunAt (line : SensorLine) (i : Nat) : Bool := line.extractLsb' i 8 == 0#8

/-- The left edge: the first sample of the first paper run (R29). -/
def leftEdge (line : SensorLine) : Option Nat := (List.range 1193).find? (paperRunAt line)

/-- The right edge: the last sample of the last paper run (R29). -/
def rightEdge (line : SensorLine) : Option Nat :=
  ((List.range 1193).reverse.find? (paperRunAt line)).map (· + 7)

/-- The measured offset, rounded toward zero (R30). -/
def measuredOffset (t : TrackerRegulation) (left right : Nat) : Int :=
  ((left : Int) - t.leftEdge + ((right : Int) - t.rightEdge)).tdiv 2

/-- The measured offset of a good line; absent on a bad line (R30). -/
def goodOffset (t : TrackerRegulation) (line : SensorLine) : Option Int :=
  match leftEdge line, rightEdge line with
  | some left, some right =>
    let excess : Int := ((right : Int) - left) - ((t.rightEdge : Int) - t.leftEdge)
    let offset := measuredOffset t left right
    if -6 ≤ excess ∧ excess ≤ 6 ∧ -40 ≤ offset ∧ offset ≤ 40 then some offset else none
  | _, _ => none

/-- The applied offset moved one sample toward the measured offset (R31). -/
def moveToward (applied measured : Int) : Int :=
  if applied < measured then applied + 1 else if measured < applied then applied - 1 else applied

/-- Edge tracking of a sensor line (R31). -/
def Detector.trackEdges (t : TrackerRegulation) (line : SensorLine) (d : Detector) : Detector :=
  match goodOffset t line with
  | some measured =>
    { d with
      appliedOffset := moveToward d.appliedOffset measured
      badRun := 0
      goodRun := min 32 (d.goodRun + 1) }
  | none => { d with badRun := d.badRun + 1, goodRun := 0 }

/-! ### Track windows (R34, R35) -/

/-- A sample of a line, OPEN or not; one outside the line is PAPER (R34). -/
def sampleOpen (line : SensorLine) (i : Int) : Bool :=
  if i < 0 then false else line.getLsbD i.toNat

/-- How many of the three samples of a track's window are OPEN (R34). -/
def windowCount (t : TrackerRegulation) (offset : Int) (line : SensorLine) (k : Track) : Nat :=
  let centre : Int := (t.centres[k] : Int) + offset
  (sampleOpen line (centre - 1)).toNat + (sampleOpen line centre).toNat
    + (sampleOpen line (centre + 1)).toNat

/-- Count a window whose samples are not all alike, saturating (R35). -/
def noiseAfter (count openSamples : Nat) : Nat :=
  if openSamples = 1 ∨ openSamples = 2 then min 65535 (count + 1) else count

/-! ### The hole detector (R37 to R42) -/

/-- What a hole detector does on a line: its state after, the event it emits, and the counts it raises. -/
structure HoleStep where
  hole : Hole
  event : Option HoleEvent
  pinhole : Bool
  ambiguous : Bool

/-- A hole detector that emits nothing. -/
def quietStep (h : Hole) : HoleStep := ⟨h, none, false, false⟩

/-- A pinhole (R37). -/
def pinholeStep : HoleStep := ⟨.closed, none, true, false⟩

/-- The confirmation of a hole (R38, R41). -/
def confirmStep (k : Track) (start reading : Nat) : HoleStep :=
  match trackClass k with
  | .ordinary => ⟨.opened start false, some ⟨.holeStart, k, start, reading, none, false⟩, false, false⟩
  | _ => quietStep (.opened start false)

/-- A line that leaves a confirmed hole OPEN (R37, R41). -/
def openStep (k : Track) (start reading : Nat) (slotGiven : Bool) : HoleStep :=
  match trackClass k with
  | .lengthClassed =>
    if !slotGiven && decide (start + 14 ≤ reading + 1) then
      ⟨.opened start true, some ⟨.slotStart, k, start, reading, none, false⟩, false, false⟩
    else quietStep (.opened start slotGiven)
  | _ => quietStep (.opened start slotGiven)

/-- The end of a hole at a position (R39, R42). -/
def endStep (k : Track) (start finish reading : Nat) : HoleStep :=
  let length := finish - start
  match trackClass k with
  | .ordinary => ⟨.closed, some ⟨.holeEnd, k, finish, reading, some length, false⟩, false, false⟩
  | .accent => quietStep .closed
  | .lengthClassed =>
    if length ≤ 10 then ⟨.closed, some ⟨.punch, k, start, reading, some length, false⟩, false, false⟩
    else if length ≤ 13 then ⟨.closed, none, false, true⟩
    else ⟨.closed, some ⟨.slotEnd, k, finish, reading, some length, false⟩, false, false⟩

/-- A hole detector on a line at position `reading` (R37). -/
def holeStep (k : Track) (reading : Nat) (isOpen : Bool) (h : Hole) : HoleStep :=
  match h, isOpen with
  | .closed, true => quietStep (.opening false reading)
  | .closed, false => quietStep .closed
  | .opening false start, true => quietStep (.opening true start)
  | .opening true start, true => confirmStep k start reading
  | .opening _ _, false => pinholeStep
  | .opened start given, true => openStep k start reading given
  | .opened start given, false => quietStep (.closing start reading given)
  | .closing start _ given, true => openStep k start reading given
  | .closing start firstPaper _, false => endStep k start firstPaper reading

/-- A hole detector closed when a stream has drained, at the reading position `c` (R45). -/
def closeStep (k : Track) (c : Nat) (h : Hole) : HoleStep :=
  match h with
  | .closed => quietStep .closed
  | .opening _ _ => pinholeStep
  | .opened start _ => endStep k start c c
  | .closing start firstPaper _ => endStep k start firstPaper c

/-! ### The events of a line (R43, R44) -/

/-- A hole detector whose state marks notes (R43). -/
def Hole.marks : Hole → Bool
  | .opened _ _ => true
  | .closing _ _ _ => true
  | _ => false

/-- The track is a note track, 5 to 92 (R40). -/
def isNote (k : Track) : Bool := decide (5 ≤ k.val) && decide (k.val ≤ 92)

/-- The accent track of a note track: B-ACCENT when its key, the track less 4, is at or below the split key, else T-ACCENT
(R43). -/
def accentTrack (splitKey : Nat) (k : Track) : Track := if k.val - 4 ≤ splitKey then 3 else 94

/-- Mark a note HOLE-START (R43). -/
def markAccent (splitKey : Nat) (holes : Vector Hole 99) (e : HoleEvent) : HoleEvent :=
  { e with
    accented := decide (e.kind = .holeStart) && isNote e.track
      && (holes[accentTrack splitKey e.track]).marks }

/-- All 99 hole detectors take a step; the events follow in ascending track order, marked by the detectors as they are after
it (R43, R44). PINHOLE and AMBIGUOUS rise by one for each track that gives cause on the line (R37, R42, R45, R47; log 32, the model's
choice). -/
def Detector.takeSteps (splitKey : Nat) (f : Track → Hole → HoleStep) (d : Detector) :
    Detector × List HoleEvent :=
  let holes : Vector Hole 99 := Vector.ofFn fun k => (f k d.holes[k]).hole
  let tracks := List.finRange 99
  ({ d with
      holes := holes
      pinhole := d.pinhole
        + BitVec.ofNat 32 (tracks.filter fun k => (f k d.holes[k]).pinhole).length
      ambiguous := d.ambiguous
        + BitVec.ofNat 32 (tracks.filter fun k => (f k d.holes[k]).ambiguous).length },
    tracks.filterMap fun k => (f k d.holes[k]).event.map (markAccent splitKey holes))

/-- A stream line at a position (R36). -/
def Detector.streamLine (map : RegulationMap) (reading : Nat) (line : TrackLine) (d : Detector) :
    Detector × List HoleEvent :=
  d.takeSteps map.expression.splitKey fun k h => holeStep k reading (line.getLsbD k.val) h

/-- The windows of a sensor line read at the applied offset: noise counts and hole detection (R34, R35, R37). -/
def Detector.readWindows (map : RegulationMap) (reading : Nat) (line : SensorLine) (d : Detector) :
    Detector × List HoleEvent :=
  let count (k : Track) : Nat := windowCount map.tracker d.appliedOffset line k
  let noise : Vector Nat 99 := Vector.ofFn fun k => noiseAfter d.noise[k] (count k)
  Detector.takeSteps map.expression.splitKey (fun k h => holeStep k reading (decide (2 ≤ count k)) h)
    { d with noise := noise }

/-- A sensor line at a position, from position 0 onward (R27, R31, R33). -/
def Detector.sensorLine (map : RegulationMap) (reading : Nat) (line : SensorLine) (d : Detector) :
    Detector × List HoleEvent :=
  let d' := d.trackEdges map.tracker line
  let d' := { d' with badLine := d'.badLine + countIf (decide (0 < d'.badRun)) }
  if 24 ≤ d'.badRun then (d', []) else d'.readWindows map reading line

/-- The track is lost: the bad-line run has reached 24 (R33). -/
def Detector.lost (d : Detector) : Bool := decide (24 ≤ d.badRun)

/-- The holes of a drained stream closed at the reading position (R45). -/
def Detector.closeHoles (map : RegulationMap) (c : Nat) (d : Detector) : Detector × List HoleEvent :=
  d.takeSteps map.expression.splitKey fun k h => closeStep k c h

/-- The track detector at PREPARE: edge tracker and hole detectors cleared, counts kept (Section 2.1, R28, R46). -/
def Detector.prepare (d : Detector) : Detector :=
  { d with appliedOffset := 0, badRun := 0, goodRun := 0, holes := Vector.replicate 99 .closed }

end Sys2Proof.Machine
end

