-- ==== Sys2Proof/Machine/Expression.lean ====
section
/-! DEFINITION. Dynamics shading (chapter 4): the halves, the expression step, and the velocity of a strike at arming. -/

namespace Sys2Proof.Machine

/-- A key's number, 1 to 88 (Section 4 of 00_scope). -/
def keyNumber (k : Key) : Nat := k.val + 1

/-- The half of a key: bass at or below the split key (R71). -/
def halfOf (map : RegulationMap) (k : Key) : HalfName :=
  if keyNumber k ≤ map.expression.splitKey then .bass else .treble

/-- A half's record. -/
def Expression.half (x : Expression) : HalfName → Half
  | .bass => x.bass
  | .treble => x.treble

/-- Change a half's record. -/
def Expression.onHalf (x : Expression) (h : HalfName) (f : Half → Half) : Expression :=
  match h with
  | .bass => { x with bass := f x.bass }
  | .treble => { x with treble := f x.treble }

/-- What a sub-kind does to its half's flags (R74). -/
def Half.apply (h : Half) : ExpressionKind → Half
  | .slowOn => { h with slowOpen := true }
  | .slowOff => { h with slowOpen := false }
  | .fastOn => { h with fastOpen := true }
  | .fastOff => { h with fastOpen := false }
  | .freezeOn => { h with frozen := true }
  | .freezeOff => { h with frozen := false }
  | .hookToggle => { h with hooked := !h.hooked }

/-- The crescendo rate (R76). -/
def Half.crescendoRate (h : Half) (e : ExpressionRegulation) : Nat :=
  (if h.slowOpen then e.slowRate else 0) + (if h.fastOpen then e.fastRate else 0)

/-- The level a half moves toward when it is not in crescendo (R77). -/
def Half.target (h : Half) (e : ExpressionRegulation) : Nat :=
  if h.hooked then e.hookLevel else e.restLevel

/-- A half's level after a step (R76, R77). -/
def Half.nextLevel (h : Half) (e : ExpressionRegulation) : Nat :=
  if h.frozen then h.level
  else if 0 < h.crescendoRate e then min 255 (h.level + h.crescendoRate e)
  else if h.target e < h.level then max (h.target e) (h.level - e.decayRate)
  else min (h.target e) (h.level + e.slowRate)

/-- A half after a step (R75). -/
def Half.step (h : Half) (e : ExpressionRegulation) : Half := { h with level := h.nextLevel e }

/-- The step period in PT units (R75). -/
def stepUnits (map : RegulationMap) : Nat := map.expression.stepPeriod * 10

/-- The next PT at which a step falls: the present PT when a step is owed there, else the first multiple of the step period that
lies above the last stepped PT and is not yet passed (R75, R78; log 22). -/
def nextStep (map : RegulationMap) (pt : Nat) (x : Expression) : Nat :=
  if x.owed then pt
  else (max (x.lastStep + 1) pt + stepUnits map - 1) / stepUnits map * stepUnits map

/-- Both halves brought forward at the step at `at_` (R75). -/
def Expression.stepAt (x : Expression) (map : RegulationMap) (at_ : Nat) : Expression :=
  { x with bass := x.bass.step map.expression, treble := x.treble.step map.expression, lastStep := at_, owed := false }

/-- Both halves set to their session-start values; the trim is kept (R72). -/
def Expression.startSession (x : Expression) (map : RegulationMap) : Expression :=
  { x with
    bass := .atRest map.expression.restLevel
    treble := .atRest map.expression.restLevel
    lastStep := 0
    owed := false }

/-- The raw velocity (R80). -/
def rawVelocity (map : RegulationMap) (x : Expression) (k : Key) (accented : Bool) : VelocityMode → Nat
  | .fixed v => v
  | .expression =>
    let level := (x.half (halfOf map k)).level
    if accented then min 255 (level + map.expression.accentAdd) else level

/-- The trimmed velocity (R81). -/
def trimmed (trim v : Nat) : Nat := v * (8 + trim) / 15

/-- The band of a trimmed velocity (R82). -/
def bandOf (vt : Nat) : Nat := vt / 64

end Sys2Proof.Machine
end

