-- ==== Sys2Proof/Machine/Budget.lean ====
section
/-! DEFINITION. The supply budget (chapter 7): charges, the wait list, shedding, granting and the grant pass; with the changes
of the key and pedal records that a shed or a grant makes (R99, R106, R124, R126). -/

namespace Sys2Proof.Machine

/-! ### Records -/

/-- Set a key's record. -/
def setKey (k : Key) (r : KeyRecord) (i : Instrument) : Instrument := { i with keys := i.keys.set k r }

/-- A pedal's record. -/
def Instrument.pedal (i : Instrument) : PedalName → PedalRecord
  | .damper => i.damper
  | .shift => i.shift

/-- Set a pedal's record. -/
def setPedal (p : PedalName) (r : PedalRecord) (i : Instrument) : Instrument :=
  match p with
  | .damper => { i with damper := r }
  | .shift => { i with shift := r }

/-- The 88 keys in ascending order. -/
def allKeys : List Key := List.finRange 88

/-- Do something at every key, in ascending order. -/
def forKeys (f : Key → Instrument → Instrument) (i : Instrument) : Instrument :=
  allKeys.foldl (fun acc k => f k acc) i

/-! ### Charges (R137) -/

/-- The charge of a key (R115). -/
def KeyRecord.charge (r : KeyRecord) : Nat :=
  match r.state with
  | .drive => 3
  | .hold => 1
  | _ => 0

/-- The charge of a pedal (R137). -/
def PedalRecord.charge (r : PedalRecord) : Nat :=
  match r.state with
  | .goingDown => 6
  | .down => 2
  | .goingUp => if r.assistEnd.isSome then 1 else 0
  | .up => 0

/-- The cost of a request (R136). -/
def Requester.cost : Requester → Nat
  | .key _ => 3
  | .pedal _ => 6

/-- The effective capacity (R138). -/
def effectiveCapacity (level : MonitorLevel) (capacity : Nat) : Nat :=
  match level with
  | .normal => capacity
  | .low => capacity / 2
  | .critical => 0

/-- The effective capacity under the working map. -/
def Instrument.effective (i : Instrument) (map : RegulationMap) : Nat :=
  effectiveCapacity i.monitor map.supply.capacity

/-- Units returned to the budget, with no pass yet (R137). -/
def returnUnits (n : Nat) (i : Instrument) : Instrument := { i with unitsInUse := i.unitsInUse - n }

/-! ### The wait list (R140) -/

/-- The place of a requester among entries of its kind with equal moments: the damper before the shift pedal, the lower key
first. -/
def Requester.rank : Requester → Nat
  | .pedal .damper => 0
  | .pedal .shift => 1
  | .key k => 2 + k.val

/-- The requester is a pedal. -/
def Requester.isPedal : Requester → Bool
  | .pedal _ => true
  | .key _ => false

/-- Entry `x` stands before entry `y` (R140). -/
def WaitEntry.before (x y : WaitEntry) : Bool :=
  if x.requester.isPedal ≠ y.requester.isPedal then x.requester.isPedal
  else if x.requestMoment ≠ y.requestMoment then decide (x.requestMoment < y.requestMoment)
  else decide (x.requester.rank < y.requester.rank)

/-- Put an entry in the place R140 gives it. -/
def insertWait (e : WaitEntry) : List WaitEntry → List WaitEntry
  | [] => [e]
  | x :: rest => if e.before x then e :: x :: rest else x :: insertWait e rest

/-- Place a request made now in the wait list, with its drop moment; no pass yet (R139). -/
def placeRequest (m : Moment) (q : Requester) (i : Instrument) : Instrument :=
  { i with waitList := insertWait ⟨q, m.now, m.now + m.map.supply.lateLimit * 1000⟩ i.waitList }

/-- Withdraw a requester from the wait list; no pass yet (R145). -/
def withdraw (q : Requester) (i : Instrument) : Instrument :=
  { i with waitList := i.waitList.filter fun e => decide (e.requester ≠ q) }

/-! ### What a shed and a grant do at a key -/

/-- The solenoid goes off and the return timer starts (R103). -/
def KeyRecord.switchOff (r : KeyRecord) (m : Moment) (k : Key) : KeyRecord :=
  { r with
    returnEnd := some (m.now + m.map.keys[k].returnTime * 100)
    channel := r.channel.switch m.now .off }

/-- The shed order at a key in HOLD (R106). -/
def shedKey (m : Moment) (k : Key) (i : Instrument) : Instrument :=
  let r := i.keys[k]
  { setKey k { r.switchOff m k with state := .shed } (returnUnits 1 i) with shed := i.shed + 1 }

/-- The grant at a key: the armed strike is fired and the key enters DRIVE (R95, R96, R99). -/
def grantKey (m : Moment) (k : Key) (requestMoment : Nat) (i : Instrument) : Instrument :=
  let r := i.keys[k]
  match r.armed with
  | none => i
  | some st =>
    let r' := { r with
      state := .drive
      armed := none
      requestMoment := none
      driveEnd := some (m.now + m.map.keys[k].driveLength * 100)
      channel := r.channel.switch m.now (.forward st.duty) }
    let i := setKey k r' { i with unitsInUse := i.unitsInUse + 3, fired := i.fired + 1 }
    if requestMoment + 2000 < m.now then raiseBoth .late { i with late := i.late + 1 } else i

/-! ### What a grant does at a pedal -/

/-- The pedal's position estimate at real time `now` (R125). An elapsed time that is no whole number of 0.1 ms is rounded down to one
(log 33, the model's choice). -/
def PedalRecord.position (r : PedalRecord) (now : Nat) : Nat :=
  match r.state, r.travel with
  | .up, _ => 0
  | .down, _ => 1000
  | .goingDown, some t =>
    if t.finish ≤ now then 1000
    else t.estimate + (1000 - t.estimate) * ((now - t.start) / 100) / ((t.finish - t.start) / 100)
  | .goingUp, some t =>
    if t.finish ≤ now then 0
    else t.estimate - t.estimate * ((now - t.start) / 100) / ((t.finish - t.start) / 100)
  | .goingDown, none => 0
  | .goingUp, none => 0

/-- The entry to DOWN (R126, R143). -/
def enterDown (m : Moment) (p : PedalName) (i : Instrument) : Instrument :=
  let r := i.pedal p
  let i := setPedal p
    { r with
      state := .down
      travel := none
      assistEnd := none
      bridge := r.bridge.switch m.now (.forward (m.map.pedal p).holdDuty) } (returnUnits 4 i)
  match p with
  | .damper => { i with damperDown := true }
  | .shift => i

/-- The grant at a pedal: it enters GOING-DOWN, its assist ended with its unit returned; a travel of no length takes it to DOWN
at once (R124, R142). -/
def grantPedal (m : Moment) (p : PedalName) (i : Instrument) : Instrument :=
  let r := i.pedal p
  let p0 := r.position m.now
  let finish := m.now + (1000 - p0) * (m.map.pedal p).downTravel / 1000 * 100
  let i := setPedal p
    { r with
      state := .goingDown
      requestMoment := none
      travel := some ⟨m.now, p0, finish⟩
      assistEnd := none
      bridge := r.bridge.switch m.now (.forward (m.map.pedal p).driveDuty) }
    { i with unitsInUse := i.unitsInUse + 6 - r.charge }
  if finish = m.now then enterDown m p i else i

/-- The grant of an entry that has left the list (R142). -/
def grant (m : Moment) (e : WaitEntry) (i : Instrument) : Instrument :=
  match e.requester with
  | .key k => grantKey m k e.requestMoment i
  | .pedal p => grantPedal m p i

/-! ### The grant pass (R141) -/

/-- The key to shed: among the keys in HOLD the one with the oldest hold start, the lowest on equal starts (R143). -/
def oldestHold (i : Instrument) : Option Key :=
  allKeys.foldl
    (fun best k =>
      if i.keys[k].state = .hold then
        match best with
        | none => some k
        | some b =>
          if (i.keys[k].holdStart.getD 0) < (i.keys[b].holdStart.getD 0) then some k else best
      else best) none

/-- Shed one held key, where the damper is down and a key is in HOLD (R141, R143). -/
def shedOne (m : Moment) (i : Instrument) : Option Instrument :=
  if i.damperDown then (oldestHold i).map fun k => shedKey m k i else none

/-- One move of a pass: a shed while the units in use exceed the effective capacity, else a grant of a head that fits, else a
shed for a head that does not; absent when the pass ends (R141). -/
def passMove (m : Moment) (i : Instrument) : Option Instrument :=
  if i.effective m.map < i.unitsInUse then shedOne m i
  else
    match i.waitList with
    | [] => none
    | e :: rest =>
      if i.unitsInUse + e.requester.cost ≤ i.effective m.map then
        some (grant m e { i with waitList := rest })
      else shedOne m i

/-- At most `fuel` moves of a pass. -/
def passMoves (m : Moment) : Nat → Instrument → Instrument
  | 0, i => i
  | fuel + 1, i =>
    match passMove m i with
    | none => i
    | some i' => passMoves m fuel i'

/-- The grant pass (R141). Each move takes an entry from the list or a key out of HOLD, so the moves are no more than the
entries and the 88 keys together. -/
def pass (m : Moment) (i : Instrument) : Instrument := passMoves m (i.waitList.length + 88) i

end Sys2Proof.Machine
end

