-- ==== Sys2Proof/Machine/KeyAction.lean ====
section
/-! DEFINITION. Key action (chapter 5): the arrival of a strike, the fire request, drive end, release, return expiry, drop, cut,
the pause effects and CRITICAL at the keys. An operation named `…Only` makes its changes with no grant pass; the operation that
uses it runs the pass after all its changes. -/

namespace Sys2Proof.Machine

/-! ### Strike records -/

/-- What the arrival of a strike hands over: the source, the sounding time of a queued strike, the accent mark and the velocity
mode (Section 5.2). -/
structure Arrival where
  origin : Origin
  sounding : Option Nat
  accented : Bool
  mode : VelocityMode
  deriving DecidableEq, Repr

/-- The drive duty of a strike (R89). -/
def driveDuty (r : KeyRegulation) (vt : Nat) : Nat :=
  r.dutyMinimum + (r.dutyMaximum - r.dutyMinimum) * vt / 255

/-- The latency of a strike: that of its band, plus the shift offset when the shift pedal stands at 500 or more (R88). -/
def strikeLatency (m : Moment) (k : Key) (band : Nat) (i : Instrument) : Nat :=
  m.map.keys[k].latency band + (if 500 ≤ i.shift.position m.now then m.map.keys[k].shiftOffset else 0)

/-- The strike record of an arrival (R87 to R89). -/
def newStrike (m : Moment) (x : Expression) (k : Key) (a : Arrival) (i : Instrument) : Strike :=
  let vt := trimmed x.trim (rawVelocity m.map x k a.accented a.mode)
  { fire := match a.sounding with
      | some t => t - strikeLatency m k (bandOf vt) i
      | none => m.pt
    velocity := vt
    band := bandOf vt
    duty := driveDuty m.map.keys[k] vt
    contributors := Origins.empty.insert a.origin
    accented := a.accented }

/-- The merge of an arriving strike into the record at the key, with the fire time given (R90). -/
def Strike.merge (st new : Strike) (fire : Nat) : Strike where
  fire := fire
  velocity := if st.velocity < new.velocity then new.velocity else st.velocity
  band := if st.velocity < new.velocity then new.band else st.band
  duty := if st.velocity < new.velocity then new.duty else st.duty
  contributors := st.contributors.union new.contributors
  accented := st.accented || new.accented

/-- The two fire times differ by 50 units of PT or less (R91). -/
def fireTimesClose (f g : Nat) : Bool := decide (f ≤ g + 50) && decide (g ≤ f + 50)

/-! ### The fire request -/

/-- The key asks for drive: WAIT with its request moment, and its entry in the wait list; no pass yet (R95, R139). A request
that the pass grants at once leaves WAIT in the same step. -/
def askOnly (m : Moment) (k : Key) (i : Instrument) : Instrument :=
  placeRequest m (.key k)
    (setKey k { i.keys[k] with state := .wait, requestMoment := some m.now } i)

/-- A key in ARMED whose fire time is at or before PT asks for drive (R95); no pass yet. -/
def askIfDueOnly (m : Moment) (k : Key) (i : Instrument) : Instrument :=
  match i.keys[k].state, i.keys[k].armed with
  | .armed, some st => if st.fire ≤ m.pt then askOnly m k i else i
  | _, _ => i

/-- A key in ARMED whose fire time is at or before PT asks for drive, and the budget runs the pass of an entry that joins the
list (R95, R139). -/
def askIfDue (m : Moment) (k : Key) (i : Instrument) : Instrument :=
  match i.keys[k].state, i.keys[k].armed with
  | .armed, some st => if st.fire ≤ m.pt then pass m (askOnly m k i) else i
  | _, _ => i

/-! ### Placing an arriving strike (R91 to R94) -/

/-- The pending place takes the strike, or the pending strike takes it in a merge (R91, R92, R94). -/
def pend (k : Key) (new : Strike) (i : Instrument) : Instrument :=
  let r := i.keys[k]
  match r.pending with
  | none => setKey k { r with pending := some new } i
  | some st =>
    { setKey k { r with pending := some (st.merge new st.fire) } i with merged := i.merged + 1 }

/-- The strike becomes the armed strike (R91, R94). -/
def arm (k : Key) (new : Strike) (i : Instrument) : Instrument :=
  setKey k { i.keys[k] with state := .armed, armed := some new, holdStart := none } i

/-- The strike becomes or joins the strike of a key in ARMED (R91). -/
def placeArmed (k : Key) (new : Strike) (i : Instrument) : Instrument :=
  let r := i.keys[k]
  match r.armed with
  | none => arm k new i
  | some st =>
    if fireTimesClose st.fire new.fire then
      { setKey k { r with armed := some (st.merge new (min st.fire new.fire)) } i with
        merged := i.merged + 1 }
    else pend k new i

/-- The strike re-strikes a key in HOLD; the unit returned runs a pass (R93). -/
def restrike (m : Moment) (k : Key) (new : Strike) (i : Instrument) : Instrument :=
  pass m
    (setKey k
      { i.keys[k].switchOff m k with state := .returning, holdStart := none, pending := some new }
      (returnUnits 1 i))

/-- Place the strike by the key's state (R91 to R94). -/
def place (m : Moment) (k : Key) (new : Strike) (i : Instrument) : Instrument :=
  match i.keys[k].state with
  | .rest => arm k new i
  | .armed => placeArmed k new i
  | .wait => pend k new i
  | .drive => pend k new i
  | .hold => restrike m k new i
  | .returning => pend k new i
  | .shed => if i.keys[k].returnEnd.isSome then pend k new i else arm k new i

/-- Add a source to a key's holder set (R87). -/
def addHolder (k : Key) (o : Origin) (i : Instrument) : Instrument :=
  setKey k { i.keys[k] with holders := i.keys[k].holders.insert o } i

/-- The arrival of a strike at a key (R87): discarded at a disabled key, else formed, held for its source, placed, and asking
for drive when its time has come. -/
def arrive (x : Expression) (k : Key) (a : Arrival) (m : Moment) (i : Instrument) : Instrument :=
  if m.map.keys[k].enabled then
    askIfDue m k (place m k (newStrike m x k a i) (addHolder k a.origin i))
  else countDiscarded 1 i

/-! ### Drive end, release, return expiry -/

/-- Drive end; the units returned run a pass (R100). -/
def endDrive (k : Key) (m : Moment) (i : Instrument) : Instrument :=
  let r := i.keys[k]
  if r.pending.isNone && !r.holders.isEmpty then
    pass m
      (setKey k
        { r with
          state := .hold
          driveEnd := none
          holdStart := some m.now
          channel := r.channel.switch m.now (.forward m.map.keys[k].holdDuty) } (returnUnits 2 i))
  else
    pass m
      (setKey k { r.switchOff m k with state := .returning, driveEnd := none } (returnUnits 3 i))

/-- What a key does when its holder set has become empty (R102). -/
def emptiedOnly (m : Moment) (k : Key) (i : Instrument) : Instrument :=
  let r := i.keys[k]
  match r.state with
  | .hold => setKey k { r.switchOff m k with state := .returning, holdStart := none } (returnUnits 1 i)
  | .shed =>
    setKey k { r with state := if r.returnEnd.isSome then .returning else .rest, holdStart := none } i
  | _ => i

/-- A release: the source leaves the holder set; one that is absent is ignored; the unit that a key in HOLD returns runs a pass
(R102). -/
def release (k : Key) (o : Origin) (m : Moment) (i : Instrument) : Instrument :=
  if i.keys[k].holders.has o then
    let holders := i.keys[k].holders.erase o
    let i' := setKey k { i.keys[k] with holders := holders } i
    if holders.isEmpty then
      if i.keys[k].state = .hold then pass m (emptiedOnly m k i') else emptiedOnly m k i'
    else i'
  else i

/-- A pending strike becomes armed with F set to the later of its own and PT, and the key enters ARMED (R104). -/
def KeyRecord.promote (r : KeyRecord) (pt : Nat) (st : Strike) : KeyRecord :=
  { r with
    state := .armed
    armed := some { st with fire := max st.fire pt }
    pending := none
    holdStart := none }

/-- Return expiry (R104, R107). -/
def expireReturn (k : Key) (m : Moment) (i : Instrument) : Instrument :=
  let r := { i.keys[k] with returnEnd := none }
  match r.state, r.pending with
  | .returning, some st => askIfDue m k (setKey k (r.promote m.pt st) i)
  | .returning, none => setKey k { r with state := .rest, holders := .empty } i
  | .shed, some st => askIfDue m k (setKey k (r.promote m.pt st) i)
  | _, _ => setKey k r i

/-! ### Loss of strikes -/

/-- A key in ARMED or WAIT whose armed strike was discarded: it withdraws from the wait list; a pending strike is promoted,
else the key enters REST with its holder set emptied (R98, R105). -/
def loseArmedOnly (m : Moment) (k : Key) (i : Instrument) : Instrument :=
  let i := withdraw (.key k) i
  let r := { i.keys[k] with armed := none, requestMoment := none }
  match r.pending with
  | some st => askIfDueOnly m k (setKey k (r.promote m.pt st) i)
  | none => setKey k { r with state := .rest, holders := .empty } i

/-- The drop of a key whose entry has left the wait list (R97); no pass yet. -/
def dropKeyOnly (m : Moment) (k : Key) (i : Instrument) : Instrument :=
  let i := raiseBoth .dropped { i with dropped := i.dropped + 1 }
  let r := { i.keys[k] with armed := none, requestMoment := none, holders := .empty }
  match r.pending with
  | some st => askIfDueOnly m k (setKey k (r.promote m.pt st) i)
  | none => setKey k { r with state := .rest } i

/-- The cut of every key in SHED when the damper enters GOING-UP (R108). -/
def cutShed (i : Instrument) : Instrument :=
  let cutKey (k : Key) (i : Instrument) : Instrument :=
    let r := i.keys[k]
    if r.state = .shed then
      raiseBoth .cut
        { setKey k
            { r with
              state := if r.returnEnd.isSome then .returning else .rest
              holders := .empty
              holdStart := none } i with
          cut := i.cut + 1 }
    else i
  forKeys cutKey i

/-! ### The pause effects at the keys (R110) -/

/-- A strike without ROLL among its contributors; absent when none is left. -/
def withoutRoll : Option Strike → Option Strike
  | none => none
  | some st =>
    let c := st.contributors.erase .roll
    if c.isEmpty then none else some { st with contributors := c }

/-- The pause effects at one key (R110). -/
def pauseKeyOnly (m : Moment) (k : Key) (i : Instrument) : Instrument :=
  let r := i.keys[k]
  let armed := withoutRoll r.armed
  let pending := withoutRoll r.pending
  let holders := r.holders.erase .roll
  let lostArmed := r.armed.isSome && armed.isNone
  let lostPending := r.pending.isSome && pending.isNone
  let i := setKey k { r with armed := armed, pending := pending, holders := holders } i
  let i := { i with discarded := i.discarded + countIf lostArmed + countIf lostPending }
  if lostArmed && (decide (r.state = .armed) || decide (r.state = .wait)) then loseArmedOnly m k i
  else if r.holders.roll && holders.isEmpty then emptiedOnly m k i
  else i

/-- The pause effects at every key; no pass yet (log 9). -/
def pauseKeysOnly (m : Moment) (i : Instrument) : Instrument := forKeys (pauseKeyOnly m) i

/-- CUT counted once for each key whose holder set contains ROLL, and notice CUT when there is one (R111). -/
def countRollCuts (i : Instrument) : Instrument :=
  forKeys
    (fun k i => if i.keys[k].holders.roll then raiseBoth .cut { i with cut := i.cut + 1 } else i) i

/-! ### CRITICAL at the keys (R112) -/

/-- The state of a key after CRITICAL (R112). -/
def KeyRecord.criticalState (r : KeyRecord) : KeyState :=
  match r.state with
  | .drive => .returning
  | .hold => .returning
  | .returning => .returning
  | .shed => if r.returnEnd.isSome then .returning else .rest
  | .rest => .rest
  | .armed => .rest
  | .wait => .rest

/-- CRITICAL at one key (R112). -/
def criticalKeyOnly (m : Moment) (k : Key) (i : Instrument) : Instrument :=
  let r := i.keys[k]
  let on := decide (r.state = .drive) || decide (r.state = .hold)
  let r0 := if on then r.switchOff m k else r
  let waiting := decide (r.state = .wait)
  let i := returnUnits r.charge i
  { setKey k
      { r0 with
        state := r.criticalState
        holders := .empty
        armed := none
        pending := none
        driveEnd := none
        holdStart := none
        requestMoment := none } i with
    cut := i.cut + countIf (!r.holders.isEmpty)
    dropped := i.dropped + countIf (r.armed.isSome && waiting)
    discarded := i.discarded + countIf (r.armed.isSome && !waiting) + countIf r.pending.isSome }

/-- CRITICAL at every key (R112). -/
def criticalKeysOnly (m : Moment) (i : Instrument) : Instrument := forKeys (criticalKeyOnly m) i

/-! ### Strikes in flight (R118) -/

/-- The armed and pending strikes of a key. -/
def KeyRecord.strikes (r : KeyRecord) : Nat :=
  (if r.armed.isSome then 1 else 0) + (if r.pending.isSome then 1 else 0)

/-- The armed and pending strikes of all keys (R118). -/
def keyStrikes (i : Instrument) : Nat := (i.keys.toList.map KeyRecord.strikes).sum

end Sys2Proof.Machine
end

