-- ==== Sys2Proof/Machine/PedalAction.lean ====
section
/-! DEFINITION. Pedal action (chapter 6), and what acts on keys, pedals and budget together: the pause effects, the drop of a
wait list entry, the write of the supply record, and supply CRITICAL. -/

namespace Sys2Proof.Machine

/-! ### Down and up -/

/-- A down: the first holder of an empty set asks the budget for 6 units (R121 to R123). -/
def pedalDown (p : PedalName) (o : Origin) (m : Moment) (i : Instrument) : Instrument :=
  let r := i.pedal p
  if r.holders.has o then i
  else
    let r' := { r with holders := r.holders.insert o }
    if r.holders.isEmpty then
      pass m (placeRequest m (.pedal p) (setPedal p { r' with requestMoment := some m.now } i))
    else setPedal p r' i

/-- The pedal's entry to GOING-UP from DOWN or GOING-DOWN, with its assist or at CRITICAL without (R127, R134): the units it no
longer holds return, the damper's departure is reported to the budget and cuts every key in SHED, and a travel of no length
passes straight on to UP. No pass yet. -/
def goUpOnly (m : Moment) (p : PedalName) (withAssist : Bool) (i : Instrument) : Instrument :=
  let r := i.pedal p
  let g := m.map.pedal p
  let p0 := r.position m.now
  let travel := p0 * g.upTravel / 1000
  let assist := withAssist && decide (0 < g.assistLength) && decide (0 < travel)
  let r' := { r with
    state := if travel = 0 then .up else .goingUp
    travel := if travel = 0 then none else some ⟨m.now, p0, m.now + travel * 100⟩
    assistEnd := if assist then some (m.now + g.assistLength * 100) else none
    bridge :=
      if assist then r.bridge.switch m.now (.reverse g.assistDuty)
      else if withAssist then r.bridge.switch m.now .off
      else r.bridge.stopAtOnce m.now }
  let i := setPedal p r' (returnUnits (r.charge - r'.charge) i)
  match p with
  | .damper => cutShed { i with damperDown := false }
  | .shift => i

/-- The last holder has left the set: a waiting pedal withdraws, and a pedal in DOWN or GOING-DOWN goes up (R127, R129). No pass
yet. -/
def upRequestOnly (m : Moment) (p : PedalName) (i : Instrument) : Instrument :=
  let r := i.pedal p
  if r.requestMoment.isSome then
    withdraw (.pedal p) (setPedal p { r with requestMoment := none } i)
  else
    match r.state with
    | .down => goUpOnly m p true i
    | .goingDown => goUpOnly m p true i
    | .up => i
    | .goingUp => i

/-- The source leaves the pedal's holder set; no pass yet (R121). -/
def leavePedalOnly (m : Moment) (p : PedalName) (o : Origin) (i : Instrument) : Instrument :=
  let r := i.pedal p
  if r.holders.has o then
    let i' := setPedal p { r with holders := r.holders.erase o } i
    if (r.holders.erase o).isEmpty then upRequestOnly m p i' else i'
  else i

/-- An up; one whose source is absent is ignored (R121). -/
def pedalUp (p : PedalName) (o : Origin) (m : Moment) (i : Instrument) : Instrument :=
  if (i.pedal p).holders.has o then
    if ((i.pedal p).holders.erase o).isEmpty then pass m (leavePedalOnly m p o i)
    else leavePedalOnly m p o i
  else i

/-! ### Travel and assist -/

/-- The end of the assist: the bridge goes OFF and 1 unit returns (R128). -/
def endAssistOnly (m : Moment) (p : PedalName) (i : Instrument) : Instrument :=
  let r := i.pedal p
  if r.assistEnd.isSome then
    setPedal p { r with assistEnd := none, bridge := r.bridge.switch m.now .off } (returnUnits 1 i)
  else i

/-- The end of GOING-UP: an assist still running ends, and the pedal enters UP; a waiting pedal stays waiting (R128). -/
def enterUpOnly (m : Moment) (p : PedalName) (i : Instrument) : Instrument :=
  let i := endAssistOnly m p i
  setPedal p { i.pedal p with state := .up, travel := none } i

/-! ### The pause effects (R110, R133) -/

/-- The pause effects at keys and pedals: all changes first, then one grant pass (R98, R110, R129, R133; log 9). -/
def pauseInstrument (m : Moment) (i : Instrument) : Instrument :=
  pass m (leavePedalOnly m .shift .roll (leavePedalOnly m .damper .roll (pauseKeysOnly m i)))

/-! ### Drops (R144) -/

/-- The drop of a waiting pedal whose entry has left the list (R130). -/
def dropPedalOnly (p : PedalName) (i : Instrument) : Instrument :=
  raiseBoth .dropped
    { setPedal p { i.pedal p with requestMoment := none, holders := .empty } i with
      pedalDropped := i.pedalDropped + 1 }

/-- The drop of an entry: it leaves the list and its requester is told; no pass yet (R144). -/
def dropOnly (m : Moment) (e : WaitEntry) (i : Instrument) : Instrument :=
  let i := withdraw e.requester i
  match e.requester with
  | .key k => dropKeyOnly m k i
  | .pedal p => dropPedalOnly p i

/-- The entry whose drop moment comes first, the first in list order on equal moments (R144). -/
def firstDrop (i : Instrument) : Option WaitEntry :=
  i.waitList.foldl
    (fun best e =>
      match best with
      | none => some e
      | some b => if e.dropMoment < b.dropMoment then some e else best) none

/-! ### The supply record (R150) -/

/-- A new supply record takes effect at once: drop moments are set again, entries whose moment has come are dropped in list
order, and the budget runs a pass (R150; log 13). `m` holds the new map. -/
def newSupplyRecord (m : Moment) (i : Instrument) : Instrument :=
  let reset (e : WaitEntry) : WaitEntry :=
    { e with dropMoment := e.requestMoment + m.map.supply.lateLimit * 1000 }
  let i := { i with waitList := i.waitList.map reset }
  pass m ((i.waitList.filter fun e => decide (e.dropMoment ≤ m.now)).foldl (fun acc e => dropOnly m e acc) i)

/-! ### The supply monitor (R146 to R148) -/

/-- CRITICAL at one pedal (R134). -/
def criticalPedalOnly (m : Moment) (p : PedalName) (i : Instrument) : Instrument :=
  let r := i.pedal p
  let i := { i with pedalDropped := i.pedalDropped + countIf r.requestMoment.isSome }
  let i := setPedal p { r with holders := .empty, requestMoment := none } i
  match r.state with
  | .down => goUpOnly m p false i
  | .goingDown => goUpOnly m p false i
  | .goingUp =>
    setPedal p { i.pedal p with assistEnd := none, bridge := r.bridge.stopAtOnce m.now } (returnUnits r.charge i)
  | .up => setPedal p { i.pedal p with bridge := r.bridge.stopAtOnce m.now } i

/-- The instrument's part of an entry to CRITICAL, in the order of R148 (log 10). -/
def enterCritical (m : Moment) (i : Instrument) : Instrument :=
  let i := criticalPedalOnly m .shift (criticalPedalOnly m .damper (criticalKeysOnly m { i with monitor := .critical }))
  raiseBoth .fault { i with unitsInUse := 0, damperDown := false, waitList := [] }

/-- The instrument's part of a change of the monitor level (R146 to R148). -/
def monitorChange (level : MonitorLevel) (m : Moment) (i : Instrument) : Instrument :=
  match level with
  | .normal => pass m { i with monitor := .normal }
  | .low => pass m (raiseBoth .supplyLow { i with monitor := .low })
  | .critical => enterCritical m i

/-- The level that the two indications give (R138). -/
def levelOf (low critical : Bool) : MonitorLevel :=
  if critical then .critical else if low then .low else .normal

/-! ### Quiet instrument (R164, R204) -/

/-- Every key is in REST. -/
def keysAtRest (i : Instrument) : Bool := i.keys.toList.all fun r => decide (r.state = .rest)

/-- The pedal is in UP and not waiting. -/
def PedalRecord.atRest (r : PedalRecord) : Bool := decide (r.state = .up) && r.requestMoment.isNone

end Sys2Proof.Machine
end

