-- ==== Sys2Proof/Machine/Queue.lean ====
section
/-! DEFINITION. The action queue (chapter 3): what a hole event becomes, sounding and launch times, the place of an entry, the
rescale, and the discards. Launching stands in Machine/Session.lean. -/

namespace Sys2Proof.Machine

/-- The entries the queue can hold (R49). -/
def queueCapacity : Nat := 512

/-! ### Entries (R50, R53 to R55) -/

/-- The entry is a STRIKE. -/
def Action.isStrike : Action → Bool
  | .strike _ _ _ _ => true
  | _ => false

/-- The key of a note track, 5 to 92: key number = track − 4 (R54). -/
def noteKey (k : Track) : Key := Fin.ofNat 88 (k.val - 5)

/-- What a hole event of a track becomes (R54). -/
def trackAction (e : HoleEvent) : Option Action :=
  let startEnd (a b : Action) : Option Action :=
    match e.kind with
    | .holeStart => some a
    | .holeEnd => some b
    | _ => none
  let hold (h : HalfName) : Option Action :=
    match e.kind with
    | .punch => some (.expression .hookToggle h)
    | .slotStart => some (.expression .freezeOn h)
    | .slotEnd => some (.expression .freezeOff h)
    | _ => none
  let t := e.track.val
  if isNote e.track then
    startEnd (.strike (noteKey e.track) e.accented .expression none) (.release (noteKey e.track))
  else if t = 0 then startEnd (.expression .slowOn .bass) (.expression .slowOff .bass)
  else if t = 97 then startEnd (.expression .slowOn .treble) (.expression .slowOff .treble)
  else if t = 1 then startEnd (.expression .fastOn .bass) (.expression .fastOff .bass)
  else if t = 96 then startEnd (.expression .fastOn .treble) (.expression .fastOff .treble)
  else if t = 2 then hold .bass
  else if t = 95 then hold .treble
  else if t = 4 then startEnd (.pedalDown .shift) (.pedalUp .shift)
  else if t = 93 then startEnd (.pedalDown .damper) (.pedalUp .damper)
  else if t = 98 then
    match e.kind with
    | .punch => some .sectionMark
    | .slotStart => some .endMark
    | _ => none
  else none

/-- The lead of an entry (R55). -/
def leadOf (map : RegulationMap) : Action → Nat
  | .strike k _ _ _ => map.keys[k].strikeLead
  | .release k => map.keys[k].releaseLead
  | .pedalDown p => (map.pedal p).downLead
  | .pedalUp p => (map.pedal p).upLead
  | .expression _ _ => 0
  | .sectionMark => 0
  | .endMark => 0

/-- The reference that the events of a line are timed against (R52). -/
structure Reference where
  time : Nat
  position : Nat
  deriving DecidableEq, Repr

/-- The sounding time of a hole event at a position (R53). -/
def soundingTime (ref : Reference) (period distance position : Nat) : Nat :=
  min ptMax (ref.time + (position + distance - ref.position) * period / 3200)

/-- An entry made now, with the sequence number it takes (R50, R51, R55). -/
def newEntry (map : RegulationMap) (action : Action) (origin : Origin) (sounding : Nat)
    (rollPosition : Option Nat) (q : Queue) : Entry where
  action := action
  origin := origin
  sounding := sounding
  lead := leadOf map action
  launch := sounding - leadOf map action
  sequence := q.nextSequence
  order := q.insertions
  rollPosition := rollPosition

/-- Entry `y` stands before entry `x`: by sounding time, on equal times by insertion (R49, R56, R65). -/
def Entry.before (y x : Entry) : Bool :=
  decide (y.sounding < x.sounding) || (decide (y.sounding = x.sounding) && decide (y.order ≤ x.order))

/-- Place an entry. A new entry, inserted last, goes after every entry whose sounding time is at or below its own (R56). -/
def placeEntry (x : Entry) : List Entry → List Entry
  | [] => [x]
  | y :: rest => if y.before x then y :: placeEntry x rest else x :: y :: rest

/-- The queue has room for `n` entries more (R56, R58). -/
def Queue.hasRoom (q : Queue) (n : Nat) : Bool := decide (q.entries.length + n ≤ queueCapacity)

/-- Insert an entry that stays queued (R51, R56). -/
def Queue.insert (q : Queue) (x : Entry) : Queue :=
  { q with
    entries := placeEntry x q.entries
    nextSequence := q.nextSequence + 1
    insertions := q.insertions + 1 }

/-- An entry that is handed to its owner at once takes its number and does not remain (R51, R56). -/
def Queue.passThrough (q : Queue) : Queue :=
  { q with nextSequence := q.nextSequence + 1, insertions := q.insertions + 1 }

/-! ### Tempo rescale (R64, R65) -/

/-- An entry after the rescale about `pt` from the old period to the new (R64). -/
def rescaleEntry (pt new old : Nat) (x : Entry) : Entry :=
  if x.origin = .roll then
    let sounding :=
      if pt < x.sounding then min ptMax (pt + (x.sounding - pt) * new / old) else x.sounding
    { x with sounding := sounding, launch := sounding - x.lead }
  else x

/-- Entries in ascending sounding time, equal times in the order of insertion (R65), two roll entries that the rescale brings to one time
not excepted (log 38, the model's choice). -/
def sortEntries (l : List Entry) : List Entry := l.foldl (fun acc x => placeEntry x acc) []

/-- The rescale of the queue (R64, R65). -/
def Queue.rescale (pt new old : Nat) (q : Queue) : Queue :=
  { q with entries := sortEntries (q.entries.map (rescaleEntry pt new old)) }

/-! ### Discards (R66, R67) -/

/-- Discard the entries that a test picks, with the number of strikes among them. -/
def Queue.discard (test : Entry → Bool) (q : Queue) : Nat × Queue :=
  ((q.entries.filter fun x => test x && x.action.isStrike).length,
    { q with entries := q.entries.filter fun x => !test x })

/-- The entry is of the roll. -/
def Entry.isRoll (x : Entry) : Bool := decide (x.origin = .roll)

/-- The entries that an END discards (R66). -/
def Entry.discardedByEnd (x : Entry) : Bool :=
  x.isRoll &&
    match x.action with
    | .strike _ _ _ _ => true
    | .expression _ _ => true
    | .sectionMark => true
    | .pedalDown _ => true
    | _ => false

/-- Discard entries, each discarded STRIKE counting DISCARDED (R66, R67). -/
def discardEntries (test : Entry → Bool) (p : Performance) : Performance :=
  { p with
    queue := (p.queue.discard test).2
    instrument := countDiscarded (p.queue.discard test).1 p.instrument }

/-! ### The strikes queued (R118) -/

/-- The STRIKE entries queued. -/
def Queue.strikes (q : Queue) : Nat := (q.entries.filter fun x => x.action.isStrike).length

end Sys2Proof.Machine
end

