-- ==== Sys2Proof/Machine/Session.lean ====
section
/-! DEFINITION. The session controller's changes of state (chapter 1): the pause effects, stop, faults, pauses, the end of a roll,
forward and reverse steps; and the launching of queue entries (R59, R60), which reaches every block. -/

namespace Sys2Proof.Machine

/-! ### Stopping, pausing, faulting -/

/-- The pause effects at keys and pedals (R110, R133). The clock stops with the change of state that goes with them. -/
def pauseEffects (e : Env) (p : Performance) : Performance := onInstrument e pauseInstrument p

/-- The start of rewinding, or IDLE at once on a rewind count of 0; the first reverse step comes 125 µs later (R23; log 15). -/
def startRewind (now : Nat) (s : Session) : Session :=
  if s.rewindCount = 0 then { s with state := .idle }
  else { s with state := .rewinding, direction := .reverse, reverseStepAt := some (now + 125) }

/-- Where STOP takes the session (R20). -/
def afterStop (e : Env) (now : Nat) (s : Session) : Session :=
  if s.state = .free ∨ s.source = .stream ∨ !e.rollPresent then { s with state := .idle }
  else startRewind now s

/-- The session record at STOP: buffers emptied, no step outstanding, the stream CLOSED, what belongs to ENDING and PAUSED absent,
the pause cause NONE (R20). -/
def clearSession (s : Session) : Session :=
  { s with
    intervalEnd := none
    awaitingImage := false
    sensorBuffer := []
    stepTimer := none
    streamBuffer := []
    streamOpen := false
    endingStart := none
    resumeTarget := none
    pauseCause := .none }

/-- The stop of R20: the queue discarded, the pause effects, the session record cleared, and IDLE or REWINDING. -/
def stopSession (e : Env) (p : Performance) : Performance :=
  onSession (fun s => afterStop e p.now (clearSession s)) (pauseEffects e (discardEntries (fun _ => true) p))

/-- Entry to FAULTED (R24). -/
def faultSession (e : Env) (cause : FaultCause) (p : Performance) : Performance :=
  let fault (s : Session) : Session :=
    { s with
      state := .faulted
      intervalEnd := none
      awaitingImage := false
      stepTimer := none
      endingStart := none
      resumeTarget := none
      pauseCause := .none
      faultCause := cause
      rollRemoved := s.rollRemoved + countIf (decide (cause = .rollRemoved)) }
  onInstrument e (fun _ i => raiseBoth .fault i) (onSession fault (pauseEffects e p))

/-- Entry to PAUSED with a cause (R19, R25, R26). -/
def pauseSession (e : Env) (cause : PauseCause) (p : Performance) : Performance :=
  let pause (s : Session) : Session :=
    { s with
      state := .paused
      intervalEnd := none
      awaitingImage := false
      pauseCause := cause
      resumeTarget := some (if s.state = .ending then .ending else .playing) }
  onSession pause (pauseEffects e p)

/-- The session is in a state that the lapse of the claim and supply CRITICAL take to PAUSED (R25, R26). -/
def SessionState.inPlay : SessionState → Bool
  | .playing => true
  | .starved => true
  | .ending => true
  | _ => false

/-- The session's action on the lapse of the claim (R25). -/
def lapseSession (e : Env) (p : Performance) : Performance :=
  if p.session.state.inPlay then pauseSession e .lapse p
  else if p.session.state = .free then stopSession e p
  else p

/-- The session's action on supply CRITICAL (R26). -/
def criticalSession (e : Env) (p : Performance) : Performance :=
  if p.session.state.inPlay then pauseSession e .supply p else p

/-! ### The end of a roll (R21, R22) -/

/-- Entry to ENDING (R21). -/
def enterEnding (s : Session) : Session :=
  { s with
    state := .ending
    intervalEnd := none
    awaitingImage := false
    stepTimer := none
    endingStart := some s.pt }

/-- A strike has ROLL among its contributors. -/
def rollContributes : Option Strike → Bool
  | some st => st.contributors.roll
  | none => false

/-- The key has to do with the roll: as a holder or as a contributor of a strike (R22). -/
def KeyRecord.hasRoll (r : KeyRecord) : Bool :=
  r.holders.roll || rollContributes r.armed || rollContributes r.pending

/-- The three conditions for the completion of ENDING (R22). -/
def rollIsDone (p : Performance) : Bool :=
  !(p.queue.entries.any Entry.isRoll) && !(p.instrument.keys.toList.any KeyRecord.hasRoll)
    && !p.instrument.damper.holders.roll && !p.instrument.shift.holders.roll

/-- The completion of ENDING: the stop of R20 and notice ROLL-END (R22). -/
def completeEnding (e : Env) (p : Performance) : Performance :=
  onInstrument e (fun _ i => raiseBoth .rollEnd i) (stopSession e p)

/-- The test of the completion conditions (R22; log 23). -/
def testEnding (e : Env) (p : Performance) : Performance :=
  if p.session.state = .ending ∧ rollIsDone p = true then completeEnding e p else p

/-! ### Steps of the roll (R14, R23) -/

/-- The session states in which the part steps the roll forward (R14). -/
def Session.steps (s : Session) : Bool :=
  match s.state with
  | .preparing => true
  | .cued => true
  | .playing => true
  | .starved => true
  | .paused => decide (s.resumeTarget = some .playing)
  | _ => false

/-- A forward step is to be issued (R14). -/
def Session.wantsStep (s : Session) : Bool :=
  decide (s.source = .sensor) && s.steps && decide (s.sensorBuffer.length < 2) && s.stepTimer.isNone

/-- Issue a forward step when R14 calls for one: direction forward, one pulse, its 20 ms line timer, one more to rewind
(R14, R15). -/
def forwardStep (now : Nat) (s : Session) : Session :=
  if s.wantsStep then
    { s with
      direction := .forward
      stepPulses := s.stepPulses + 1
      stepTimer := some (now + 20000)
      rewindCount := s.rewindCount + 1 }
  else s

/-- What follows every change: the test of ENDING and the issue of a forward step (R14, R22). -/
def settle (e : Env) (p : Performance) : Performance :=
  let p := testEnding e p
  onSession (forwardStep p.now) p

/-- Change the performance, and let what follows every change follow. A part that does not run changes nothing. -/
def changePerf (f : Env → Performance → Performance) (s : State) : State :=
  if s.running then onPerf (fun e p => settle e (f e p)) s else s

/-! ### Launching (R59, R60) -/

/-- The launch of an END: the discard of R66, and ENDING from PLAYING (R21). -/
def launchEnd (p : Performance) : Performance :=
  onSession (fun s => if s.state = .playing then enterEnding s else s)
    (discardEntries Entry.discardedByEnd p)

/-- Hand an entry that has left the queue to its owner (R60). -/
def handOver (e : Env) (x : Entry) (p : Performance) : Performance :=
  match x.action with
  | .strike k accented mode _ =>
    onInstrument e (arrive p.expression k ⟨x.origin, some x.sounding, accented, mode⟩) p
  | .release k => onInstrument e (release k x.origin) p
  | .pedalDown d => onInstrument e (pedalDown d x.origin) p
  | .pedalUp d => onInstrument e (pedalUp d x.origin) p
  | .expression kind h =>
    { p with expression := p.expression.onHalf h fun r => r.apply kind }
  | .sectionMark => onInstrument e (fun _ i => raiseBoth .sectionMark i) p
  | .endMark => launchEnd p

/-- Take the first entry that a test picks out of a list. -/
def takeFirst (test : Entry → Bool) : List Entry → Option (Entry × List Entry)
  | [] => none
  | x :: rest =>
    if test x then some (x, rest)
    else (takeFirst test rest).map fun r => (r.1, x :: r.2)

/-- Launch the first entry in queue order whose launch time is at or before `bound`, with the test of ENDING after it. -/
def launchFirst (e : Env) (bound : Nat) (p : Performance) : Option Performance :=
  (takeFirst (fun x => decide (x.launch ≤ bound)) p.queue.entries).map fun r =>
    testEnding e (handOver e r.1 { p with queue := { p.queue with entries := r.2 } })

/-- At most `fuel` launches of due entries. -/
def launchUpTo (e : Env) : Nat → Performance → Performance
  | 0, p => p
  | fuel + 1, p =>
    if p.session.state.clockRuns then
      match launchFirst e p.session.pt p with
      | none => p
      | some p' => launchUpTo e fuel p'
    else p

/-- While the clock runs, every entry whose launch time is at or before PT goes, in queue order (R59). A launch inserts no entry,
so there are no more launches than entries. -/
def launchDue (e : Env) (p : Performance) : Performance := launchUpTo e p.queue.entries.length p

/-- The least launch time of the queued entries. -/
def leastLaunch (q : Queue) : Option Nat := (q.entries.map Entry.launch).min?

/-! ### Inserting (R51, R56, R61 to R63) -/

/-- Insert an entry that has a place: it is handed over at once when the clock runs and its launch time has come (R56). A STRIKE
counts ACCEPTED (R68). -/
def insertEntry (e : Env) (x : Entry) (p : Performance) : Performance :=
  let p := { p with
    instrument := { p.instrument with accepted := p.instrument.accepted + countIf x.action.isStrike } }
  if p.session.state.clockRuns && decide (x.launch ≤ p.session.pt) then
    handOver e x { p with queue := p.queue.passThrough }
  else { p with queue := p.queue.insert x }

/-- What a roll entry refused for a full queue does beside its count and notice (R61 to R63). -/
def refusedEffect (e : Env) (a : Action) (p : Performance) : Performance :=
  let early (p : Performance) : Performance :=
    { p with instrument := { p.instrument with earlyRelease := p.instrument.earlyRelease + 1 } }
  match a with
  | .strike _ _ _ _ =>
    { p with instrument := countDiscarded 1 { p.instrument with accepted := p.instrument.accepted + 1 } }
  | .release k => early (onInstrument e (release k .roll) p)
  | .pedalUp d => early (onInstrument e (pedalUp d .roll) p)
  | _ => p

/-- A roll entry refused for a full queue: ROLL-OVERRUN counted, its notice raised, and its effect (R61 to R63). -/
def refuseRoll (e : Env) (a : Action) (p : Performance) : Performance :=
  refusedEffect e a
    { p with
      queue := { p.queue with rollOverrun := p.queue.rollOverrun + 1 }
      instrument := raiseBoth .rollOverrun p.instrument }

/-- A hole event is turned into an entry and inserted, or refused for a full queue (R52 to R56). -/
def queueEvent (e : Env) (ref : Reference) (ev : HoleEvent) (p : Performance) : Performance :=
  match trackAction ev with
  | none => p
  | some a =>
    if p.queue.hasRoom 1 then
      let sounding := soundingTime ref p.session.tempo e.map.tracker.soundingDistance ev.position
      insertEntry e (newEntry e.map a .roll sounding (some ev.position) p.queue) p
    else refuseRoll e a p

/-- The events of a line, inserted as one whole in the order they are handed on (R44, R56). -/
def queueEvents (e : Env) (ref : Reference) (events : List HoleEvent) (p : Performance) : Performance :=
  events.foldl (fun acc ev => queueEvent e ref ev acc) p

/-- A drained stream: ENDING, its open holes closed, and what is due launched; the completion is tested after (R21, R45; log 20). -/
def drainSession (e : Env) (p : Performance) : Performance :=
  let p := onSession enterEnding p
  let c := p.session.rollPosition
  let out := p.detector.closeHoles e.map c
  launchDue e (queueEvents e ⟨p.session.pt, c⟩ out.2 { p with detector := out.1 })

end Sys2Proof.Machine
end

