-- ==== Sys2Proof/Machine/Pacer.lean ====
section
/-! DEFINITION. The line pacer and the line supply (chapter 1): threading, pre-roll, the intervals of PLAYING, starvation, and the
roll events SCAN_IMAGE, LINE_TIMER_EXPIRY, THREADING_INTERVAL_END, PRE_ROLL_INTERVAL_END, LINE_INTERVAL_END, REVERSE_STEP,
ENDING_LIMIT. -/

namespace Sys2Proof.Machine

/-! ### Intervals (R6, R7, R10) -/

/-- The threading period, in µs (R6). -/
def threadingPeriod : Nat := 2500

/-- The length of an interval of a frame, in µs (R10). -/
def intervalLength (tempo index : Nat) : Nat := tempo / 32 + (if index < tempo % 32 then 1 else 0)

/-- Begin an interval in PLAYING at a moment (R10). -/
def beginInterval (at_ : Nat) (s : Session) : Session :=
  let index := if s.newFrame then 0 else s.frameIndex
  { s with
    frameIndex := index
    newFrame := false
    intervalEnd := some (at_ + intervalLength s.tempo index) }

/-- The index advances at an interval end (R10). -/
def nextIndex (s : Session) : Session := { s with frameIndex := (s.frameIndex + 1) % 32 }

/-- Begin a threading or pre-roll interval at a moment (R6, R7). -/
def beginThreading (at_ : Nat) (s : Session) : Session :=
  { s with intervalEnd := some (at_ + threadingPeriod), awaitingImage := false }

/-! ### Consuming a line (R7, R11, R27, R33) -/

/-- A consumed line receives the roll position, which advances by one and stays at its highest value (R7, R11). -/
def advancePosition (s : Session) : Session :=
  { s with lastPosition := s.rollPosition, rollPosition := min positionMax (s.rollPosition + 1) }

/-- A line that the track detector has processed: its events go to the queue, or the session faults TRACK-LOST (R33). -/
def afterLine (e : Env) (ref : Reference) (out : Detector × List HoleEvent) (sensor : Bool)
    (p : Performance) : Performance :=
  let p := onSession advancePosition { p with detector := out.1 }
  if sensor && out.1.lost then faultSession e .trackLost p else queueEvents e ref out.2 p

/-- Consume the oldest line of the source's buffer, from position 0 onward; absent when the buffer is empty (R7, R8, R11). -/
def consume (e : Env) (ref : Reference) (p : Performance) : Option Performance :=
  match p.session.source with
  | .sensor =>
    match p.session.sensorBuffer with
    | [] => none
    | line :: rest =>
      some (afterLine e ref (p.detector.sensorLine e.map p.session.rollPosition line) true
        (onSession (fun s => { s with sensorBuffer := rest }) p))
  | .stream =>
    match p.session.streamBuffer with
    | [] => none
    | line :: rest =>
      some (afterLine e ref (p.detector.streamLine e.map p.session.rollPosition line) false
        (onSession (fun s => { s with streamBuffer := rest }) p))

/-- Consume a line in PLAYING, timed from the current PT and the line's position; the line at the highest position ends the roll
(R11, R52). A line at that position that also loses the track faults, and the roll does not end (R21, R33; log 37, the model's choice).
Absent when the buffer is empty. -/
def consumePlaying (e : Env) (p : Performance) : Option Performance :=
  let position := p.session.rollPosition
  (consume e ⟨p.session.pt, position⟩ p).map fun p' =>
    if p'.session.state = .playing ∧ position = positionMax then onSession enterEnding p' else p'

/-- Begin the next interval if the session is still PLAYING (R10). -/
def continuePlaying (at_ : Nat) (p : Performance) : Performance :=
  if p.session.state = .playing then onSession (beginInterval at_) p else p

/-! ### Threading and SENSOR pre-roll (R6, R7) -/

/-- Consume the oldest line in threading (R6, R32). -/
def consumeThreading (e : Env) (line : SensorLine) (rest : List SensorLine) (p : Performance) : Performance :=
  let d := p.detector.trackEdges e.map.tracker line
  let p := onSession
    (fun s => { s with
      sensorBuffer := rest
      threadingLines := s.threadingLines + 1
      threadingStable := decide (32 ≤ d.goodRun) }) { p with detector := d }
  if !p.session.threadingStable && decide (4000 ≤ p.session.threadingLines) then
    faultSession e .threadFault p
  else p

/-- The reference of a pre-roll line (R52). -/
def preRollReference (e : Env) : Reference := ⟨0, e.map.tracker.soundingDistance - 1⟩

/-- The sounding distance has been consumed: CUED, and the pacer stops (R7). -/
def cueAtDistance (e : Env) (p : Performance) : Performance :=
  if p.session.state = .preparing ∧ e.map.tracker.soundingDistance ≤ p.session.rollPosition then
    onSession (fun s => { s with state := .cued, intervalEnd := none, awaitingImage := false }) p
  else p

/-- The end, at a moment, of a threading or pre-roll interval, or the arrival of the image it waited for: the oldest line is
consumed and the next interval begins; with an empty buffer the pacer waits for an image (R6, R7). -/
def prepareLine (e : Env) (at_ : Nat) (p : Performance) : Performance :=
  match p.session.sensorBuffer with
  | [] => onSession (fun s => { s with intervalEnd := none, awaitingImage := true }) p
  | line :: rest =>
    let p' :=
      if p.session.threadingStable then (consume e (preRollReference e) p).getD p
      else consumeThreading e line rest p
    let p' := if p.session.threadingStable then cueAtDistance e p' else p'
    if p'.session.state = .preparing then onSession (beginThreading at_) p' else p'

/-! ### PLAYING and STARVED (R11, R12) -/

/-- The end of an interval in PLAYING (R11, R12). -/
def playLine (e : Env) (at_ : Nat) (p : Performance) : Performance :=
  let p := onSession nextIndex p
  match consumePlaying e p with
  | some p' => continuePlaying at_ p'
  | none =>
    if p.session.source = .stream ∧ p.session.streamOpen = false then drainSession e p
    else
      onInstrument e (fun _ i => raiseBoth .starved i)
        (onSession (fun s => { s with state := .starved, intervalEnd := none }) p)

/-- A line is available to a STARVED session (R12). -/
def lineAvailable (s : Session) : Bool :=
  match s.source with
  | .sensor => decide (0 < s.sensorBuffer.length)
  | .stream =>
    decide (32 ≤ s.streamBuffer.length) || (!s.streamOpen && decide (0 < s.streamBuffer.length))

/-- The session leaves STARVED when a line is available, or for ENDING when the stream is CLOSED and empty; the entries that are
due launch as the clock starts, then the oldest line is consumed and an interval begins (R12, R59; log 20). -/
def resumeStarved (e : Env) (p : Performance) : Performance :=
  if p.session.state = .starved then
    if lineAvailable p.session then
      let p := launchDue e (onSession (fun s => { s with state := .playing }) p)
      if p.session.state = .playing then
        continuePlaying p.now ((consumePlaying e p).getD p)
      else p
    else if p.session.source = .stream ∧ p.session.streamOpen = false ∧ p.session.streamBuffer = [] then
      drainSession e p
    else p
  else p

/-! ### STREAM pre-roll (R8) -/

/-- Consume `n` stream lines of pre-roll, one after another. -/
def consumeStream (e : Env) : Nat → Performance → Performance
  | 0, p => p
  | n + 1, p =>
    match consume e (preRollReference e) p with
    | none => p
    | some p' => consumeStream e n p'

/-- The pre-roll of a stream, set off when the buffer holds D + 32 lines or the stream is CLOSED (R8). -/
def streamPreRoll (e : Env) (p : Performance) : Performance :=
  let d := e.map.tracker.soundingDistance
  let held := p.session.streamBuffer.length
  if p.session.state = .preparing ∧ p.session.source = .stream then
    if d + 32 ≤ held then onSession (fun s => { s with state := .cued }) (consumeStream e d p)
    else if p.session.streamOpen = false then
      onSession (fun s => { s with state := .cued }) (consumeStream e held p)
    else p
  else p

/-- What a change of the stream sets off at once (R8, R12, R16, R17). -/
def streamChanged (e : Env) (p : Performance) : Performance := resumeStarved e (streamPreRoll e p)

/-! ### Roll events -/

/-- Do something at a moment, once real time has gone there; nothing when there is no such moment (logs 4, 6). -/
def atMoment (t : Option Nat) (f : Nat → Performance → Performance) (p : Performance) : Performance :=
  match t with
  | none => p
  | some t => f t (advanceTo t p)

/-- An image joins the sensor line buffer and its step ends, or it is a stray (R14). -/
def takeImage (samples : SensorLine) (s : Session) : Session :=
  if s.stepTimer.isSome then { s with sensorBuffer := s.sensorBuffer ++ [samples], stepTimer := none }
  else { s with scanStray := s.scanStray + 1 }

/-- What the arrival of an image sets off (R6, R7, R12). -/
def imageArrived (e : Env) (p : Performance) : Performance :=
  if p.session.state = .preparing ∧ p.session.awaitingImage = true ∧ p.session.sensorBuffer ≠ [] then
    prepareLine e p.now p
  else if p.session.source = .sensor then resumeStarved e p
  else p

/-- SCAN_IMAGE (R14). In standby and stabilisation the session is IDLE with no step outstanding, and the image is a stray; a part
held in reset takes no event (R207). -/
def execScanImage (samples : SensorLine) (s : State) : Host.Outcome State Fault Refusal :=
  .next
    (match s.power.state with
    | .running => changePerf (fun e p => imageArrived e (onSession (takeImage samples) p)) s
    | .held => s
    | _ => onPerf (fun _ => onSession (takeImage samples)) s)

/-- LINE_TIMER_EXPIRY (R15). -/
def execLineTimerExpiry (s : State) : Host.Outcome State Fault Refusal :=
  .next (changePerf (fun e p => atMoment p.session.stepTimer (fun _ => faultSession e .sensorFault) p) s)

/-- The end of the interval in progress in PREPARING, in threading or in pre-roll. -/
def Session.preparingEnd (s : Session) (preRoll : Bool) : Option Nat :=
  if s.state = .preparing ∧ s.threadingStable = preRoll then s.intervalEnd else none

/-- The end of the interval in progress in PLAYING. -/
def Session.playingEnd (s : Session) : Option Nat := if s.state = .playing then s.intervalEnd else none

/-- THREADING_INTERVAL_END (R6). -/
def execThreadingIntervalEnd (s : State) : Host.Outcome State Fault Refusal :=
  .next (changePerf (fun e p => atMoment (p.session.preparingEnd false) (prepareLine e) p) s)

/-- PRE_ROLL_INTERVAL_END (R7). -/
def execPreRollIntervalEnd (s : State) : Host.Outcome State Fault Refusal :=
  .next (changePerf (fun e p => atMoment (p.session.preparingEnd true) (prepareLine e) p) s)

/-- LINE_INTERVAL_END (R11, R12). -/
def execLineIntervalEnd (s : State) : Host.Outcome State Fault Refusal :=
  .next (changePerf (fun e p => atMoment p.session.playingEnd (playLine e) p) s)

/-- A reverse step: one pulse, one less to rewind, and IDLE at 0 (R23). -/
def reverseOne (t : Nat) (s : Session) : Session :=
  let left := s.rewindCount - 1
  { s with
    state := if left = 0 then .idle else s.state
    direction := .reverse
    stepPulses := s.stepPulses + 1
    rewindCount := left
    reverseStepAt := if left = 0 then none else some (t + 125) }

/-- The moment of the next reverse step while the session is REWINDING. -/
def Session.rewindingAt (s : Session) : Option Nat := if s.state = .rewinding then s.reverseStepAt else none

/-- REVERSE_STEP (R23). -/
def execReverseStep (s : State) : Host.Outcome State Fault Refusal :=
  .next (changePerf (fun _ p => atMoment p.session.rewindingAt (fun t => onSession (reverseOne t)) p) s)

/-- The moment of the ending limit: PT at the ending start plus 40,000, capped (R22). -/
def endingMoment (p : Performance) : Option Nat :=
  match p.session.state, p.session.endingStart with
  | .ending, some start => ptMoment (min ptMax (start + 40000)) p
  | _, _ => none

/-- The ending limit: the cuts are counted, the pause effects applied, and every queued roll entry discarded; the completion
follows (R22, R67, R111). -/
def endingLimit (e : Env) (p : Performance) : Performance :=
  discardEntries Entry.isRoll (pauseEffects e (onInstrument e (fun _ i => countRollCuts i) p))

/-- ENDING_LIMIT (R22). -/
def execEndingLimit (s : State) : Host.Outcome State Fault Refusal :=
  .next (changePerf (fun e p => atMoment (endingMoment p) (fun _ => endingLimit e) p) s)

end Sys2Proof.Machine
end

