-- ==== Sys2Proof/Machine/Claims.lean ====
section
/-! DEFINITION. The claim unit (chapter 9): taking, keeping, giving up and losing the claim, and the admission. -/

namespace Sys2Proof.Machine

/-- The length of a lease: 1500 ms, in µs (R172). -/
def leaseLength : Nat := 1500000

/-- No link holds the claim (R171). -/
def dropClaim (s : State) : State := { s with claim := { s.claim with held := none } }

/-- The link holds the claim with a lease from now, and the expected phase given (R172, R173). -/
def grantLease (l : Link) (secondPhase : Bool) (s : State) : State :=
  { s with claim := { s.claim with held := some ⟨l, s.perf.now + leaseLength, secondPhase⟩ } }

/-- Change the instrument alone. -/
def mapInstrument (f : Instrument → Instrument) (s : State) : State :=
  { s with perf := { s.perf with instrument := f s.perf.instrument } }

/-- The lapse of the claim: holder NONE, notice CLAIM-LAPSED, and the session's action (R174, R175, R25). -/
def lapseClaim (s : State) : State :=
  onPerf (fun e p => settle e (lapseSession e p)) (mapInstrument (raiseBoth .claimLapsed) (dropClaim s))

/-! ### CLAIM, RENEW, YIELD, ASK_YIELD -/

/-- The execution of CLAIM (R172). -/
def runClaim (l : Link) : State → Reply × State :=
  require (fun s => !s.holds l) .alreadyHolder <|
  require (fun s => !s.otherHolds l) .heldByOther fun s =>
  (okReply, grantLease l false s)

/-- CLAIM (R172). -/
def execClaim (l : Link) (s : State) : Host.Outcome State Fault Refusal :=
  .next (request l (.claim l) (runClaim l) s)

/-- A phase, 1 or 2; true is 2 (R173). -/
def phaseOf (phase : Byte) : Option Bool :=
  if phase = 1 then some false else if phase = 2 then some true else none

/-- The expected phase is 2 (R171). -/
def State.expectsSecond (s : State) : Bool :=
  match s.claim.held with
  | some h => h.secondPhase
  | none => false

/-- The execution of RENEW (R173). -/
def runRenew (l : Link) (phase : Byte) : State → Reply × State :=
  require (fun s => s.holds l) .notHolder <|
  requireValue (phaseOf phase) fun second =>
  require (fun s => decide (s.expectsSecond = second)) .wrongPhase fun s =>
  (okReply, grantLease l (!second) s)

/-- RENEW (R173). -/
def execRenew (l : Link) (phase : Byte) (s : State) : Host.Outcome State Fault Refusal :=
  .next (request l (.renew l phase) (runRenew l phase) s)

/-- The execution of YIELD (R176). -/
def runYield (l : Link) : State → Reply × State :=
  require (fun s => s.holds l) .notHolder fun s => (okReply, dropClaim s)

/-- YIELD (R176). -/
def execYield (l : Link) (s : State) : Host.Outcome State Fault Refusal :=
  .next (request l (.yieldClaim l) (runYield l) s)

/-- The execution of ASK-YIELD (R177). -/
def runAskYield (l : Link) : State → Reply × State :=
  require (fun s => !s.holds l) .alreadyHolder <|
  require (fun s => s.otherHolds l) .badState fun s =>
  (okReply, mapInstrument (raiseOn l.other .yieldAsked) s)

/-- ASK_YIELD (R177). -/
def execAskYield (l : Link) (s : State) : Host.Outcome State Fault Refusal :=
  .next (request l (.askYield l) (runAskYield l) s)

/-! ### SET_ADMISSION -/

/-- The execution of SET-ADMISSION (R178). -/
def runSetAdmission (l : Link) (code : Byte) : State → Reply × State :=
  require (fun s => s.holds l) .notHolder <|
  requireValue (admissionOf code) fun admission s =>
  (okReply, { s with claim := { s.claim with admission := admission } })

/-- SET_ADMISSION (R178). -/
def execSetAdmission (l : Link) (admission : Byte) (s : State) : Host.Outcome State Fault Refusal :=
  .next (request l (.setAdmission l admission) (runSetAdmission l admission) s)

/-! ### LEASE_END -/

/-- Let real time pass to a moment, and nothing else. -/
def passTo (t : Nat) (s : State) : State := { s with perf := advanceTo t s.perf }

/-- LEASE_END (R174): real time reaches the lease end and the claim lapses, in standby and stabilisation too (log 35); nothing while
the holder is NONE (log 6), and a part held in reset takes no event (R207). -/
def execLeaseEnd (s : State) : Host.Outcome State Fault Refusal :=
  match s.claim.held with
  | some h => .next (if s.power.state = .held then s else lapseClaim (passTo h.leaseEnd s))
  | none => .next s

end Sys2Proof.Machine
end

