-- ==== Sys2Proof/Machine/Events.lean ====
section
/-! DEFINITION. The performance events (chapters 3 to 7): ENTRY_LAUNCH, EXPRESSION_STEP, FIRE_REQUEST, DRIVE_END, RETURN_EXPIRY,
DROP_MOMENT, GOING_DOWN_TRAVEL_END, ASSIST_END, GOING_UP_TRAVEL_END. Each is the reaching of its moment (log 4); where no such
timer runs the event cannot occur and changes nothing (log 6). -/

namespace Sys2Proof.Machine

/-! ### The queue and the expression unit -/

/-- The moment of the next launch: PT at the least launch time of the queued entries, while the clock runs (R59). -/
def launchMoment (p : Performance) : Option Nat :=
  if p.session.state.clockRuns then
    match leastLaunch p.queue with
    | some t => ptMoment t p
    | none => none
  else none

/-- ENTRY_LAUNCH (R59): the first entry in queue order whose launch time PT has reached is handed to its owner. -/
def execEntryLaunch (s : State) : Host.Outcome State Fault Refusal :=
  .next (changePerf
    (fun e p => atMoment (launchMoment p) (fun _ p => (launchFirst e p.session.pt p).getD p) p) s)

/-- The moment of the next expression step (R75). -/
def stepMoment (e : Env) (p : Performance) : Option Nat :=
  ptMoment (nextStep e.map p.session.pt p.expression) p

/-- The expression step due at or next after PT (R75 to R77). -/
def expressionStep (e : Env) (p : Performance) : Performance :=
  let at_ := nextStep e.map p.session.pt p.expression
  atMoment (ptMoment at_ p) (fun _ p => { p with expression := p.expression.stepAt e.map at_ }) p

/-- EXPRESSION_STEP (R75). -/
def execExpressionStep (s : State) : Host.Outcome State Fault Refusal := .next (changePerf expressionStep s)

/-! ### Keys -/

/-- The moment at which PT reaches the fire time of a key in ARMED (R95). -/
def fireMoment (k : Key) (p : Performance) : Option Nat :=
  let r := p.instrument.keys[k]
  match r.state, r.armed with
  | .armed, some st => ptMoment st.fire p
  | _, _ => none

/-- FIRE_REQUEST (R95, R139). -/
def execFireRequest (k : Key) (s : State) : Host.Outcome State Fault Refusal :=
  .next (changePerf
    (fun e p => atMoment (fireMoment k p) (fun _ => onInstrument e fun m i => askIfDue m k i) p) s)

/-- The drive end of a key in DRIVE (R99). -/
def driveMoment (k : Key) (i : Instrument) : Option Nat :=
  if i.keys[k].state = .drive then i.keys[k].driveEnd else none

/-- DRIVE_END (R100). -/
def execDriveEnd (k : Key) (s : State) : Host.Outcome State Fault Refusal :=
  .next (changePerf
    (fun e p => atMoment (driveMoment k p.instrument) (fun _ => onInstrument e (endDrive k)) p) s)

/-- RETURN_EXPIRY (R104, R107). -/
def execReturnExpiry (k : Key) (s : State) : Host.Outcome State Fault Refusal :=
  .next (changePerf
    (fun e p => atMoment p.instrument.keys[k].returnEnd (fun _ => onInstrument e (expireReturn k)) p) s)

/-! ### The supply budget -/

/-- The first drop moment of the wait list. -/
def dropMoment (i : Instrument) : Option Nat := (firstDrop i).map WaitEntry.dropMoment

/-- The entry whose drop moment comes first is dropped, and the budget runs a pass (R144). -/
def dropFirst (m : Moment) (i : Instrument) : Instrument :=
  match firstDrop i with
  | some x => pass m (dropOnly m x i)
  | none => i

/-- DROP_MOMENT (R144). -/
def execDropMoment (s : State) : Host.Outcome State Fault Refusal :=
  .next (changePerf (fun e p => atMoment (dropMoment p.instrument) (fun _ => onInstrument e dropFirst) p) s)

/-! ### Pedals -/

/-- The travel end of a pedal in a state. -/
def travelMoment (state : PedalState) (p : PedalName) (i : Instrument) : Option Nat :=
  if (i.pedal p).state = state then (i.pedal p).travel.map Travel.finish else none

/-- GOING_DOWN_TRAVEL_END (R126): the pedal enters DOWN, and the units returned run a pass. -/
def execGoingDownTravelEnd (d : PedalName) (s : State) : Host.Outcome State Fault Refusal :=
  .next (changePerf
    (fun e p => atMoment (travelMoment .goingDown d p.instrument)
      (fun _ => onInstrument e fun m i => pass m (enterDown m d i)) p) s)

/-- ASSIST_END (R128): the bridge goes OFF, and the unit returned runs a pass. -/
def execAssistEnd (d : PedalName) (s : State) : Host.Outcome State Fault Refusal :=
  .next (changePerf
    (fun e p => atMoment (p.instrument.pedal d).assistEnd
      (fun _ => onInstrument e fun m i => pass m (endAssistOnly m d i)) p) s)

/-- GOING_UP_TRAVEL_END (R128): the pedal enters UP; a unit of an assist cut short runs a pass. -/
def execGoingUpTravelEnd (d : PedalName) (s : State) : Host.Outcome State Fault Refusal :=
  .next (changePerf
    (fun e p => atMoment (travelMoment .goingUp d p.instrument)
      (fun _ => onInstrument e fun m i => pass m (enterUpOnly m d i)) p) s)

end Sys2Proof.Machine
end

