-- ==== Sys2Proof/Machine/Formats.lean ====
section
/-! DEFINITION. The formats of the links (Section 10.7): the body of every request, read and written, and the frame of every
message the part sends. -/

namespace Sys2Proof.Machine

/-! ### Reading a request's body (R192, R200, Section 10.7.3) -/

/-- Two characters as a number, least significant first. -/
def word16 (a b : Byte) : BitVec 16 := BitVec.ofNat 16 (a.toNat + 256 * b.toNat)

/-- Three characters as a number, least significant first. -/
def word24 (a b c : Byte) : BitVec 24 := BitVec.ofNat 24 (a.toNat + 256 * (b.toNat + 256 * c.toNat))

/-- The track lines of `n` groups of 13 characters. -/
def linesOf : Nat → List Byte → List (BitVec 104)
  | 0, _ => []
  | n + 1, l => BitVec.ofNat 104 (leNat (l.take 13)) :: linesOf n (l.drop 13)

/-- The fields of a LIVE-STRIKE body after the options, whose length the options call for (Section 10.7.5). -/
def strikeFields (options : Byte) (rest : List Byte) : Option (Byte × BitVec 16 × BitVec 16) :=
  match optionFixed options, optionAt options, optionHold options, rest with
  | false, false, false, [] => some (0, 0, 0)
  | true, false, false, [v] => some (v, 0, 0)
  | false, true, false, [a, b] => some (0, word16 a b, 0)
  | true, true, false, [v, a, b] => some (v, word16 a b, 0)
  | false, false, true, [c, d] => some (0, 0, word16 c d)
  | true, false, true, [v, c, d] => some (v, 0, word16 c d)
  | false, true, true, [a, b, c, d] => some (0, word16 a b, word16 c d)
  | true, true, true, [v, a, b, c, d] => some (v, word16 a b, word16 c d)
  | _, _, _, _ => none

/-- The offset of a LIVE-RELEASE or LIVE-PEDAL body, present with AT (Section 10.7.3). -/
def offsetField (options : Byte) (rest : List Byte) : Option (BitVec 16) :=
  match optionAt options, rest with
  | false, [] => some 0
  | true, [a, b] => some (word16 a b)
  | _, _ => none

/-- The request with an empty body, when the body is empty. -/
def bare (c : Instr) : List Byte → Option Instr
  | [] => some c
  | _ => none

/-- The request with a body of one character. -/
def oneChar (f : Byte → Instr) : List Byte → Option Instr
  | [a] => some (f a)
  | _ => none

/-- The request with a body of two characters. -/
def twoChars (f : Byte → Byte → Instr) : List Byte → Option Instr
  | [a, b] => some (f a b)
  | _ => none

/-- A SET-TEMPO body. -/
def tempoBody (l : Link) : List Byte → Option Instr
  | [a, b, c] => some (.setTempo l (word24 a b c))
  | _ => none

/-- A STREAM-LINES body, of 1 + 13 × count characters. -/
def streamBody (l : Link) : List Byte → Option Instr
  | count :: rest =>
    if rest.length = 13 * count.toNat then some (.streamLines l count (linesOf count.toNat rest)) else none
  | [] => none

/-- A LIVE-STRIKE body. -/
def strikeBody (l : Link) : List Byte → Option Instr
  | key :: options :: rest =>
    (strikeFields options rest).map fun f => .liveStrike l key options f.1 f.2.1 f.2.2
  | _ => none

/-- A LIVE-RELEASE body. -/
def releaseBody (l : Link) : List Byte → Option Instr
  | key :: options :: rest => (offsetField options rest).map fun f => .liveRelease l key options f
  | _ => none

/-- A LIVE-PEDAL body. -/
def pedalBody (l : Link) : List Byte → Option Instr
  | pedal :: options :: rest => (offsetField options rest).map fun f => .livePedal l pedal options f
  | _ => none

/-- A WRITE-RECORD body, of the length its selector calls for. -/
def recordBody (l : Link) : List Byte → Option Instr
  | selector :: index :: contents =>
    if contentsLength selector = some contents.length then some (.writeRecord l selector index contents)
    else none
  | _ => none

/-- A SET-NOTICE-MASK body. -/
def maskBody (l : Link) : List Byte → Option Instr
  | [a, b] => some (.setNoticeMask l (word16 a b))
  | _ => none

/-- The request that a message of this kind and body is; `none` where the kind names a request and the body has no length that
R192 allows it. -/
def requestOf (l : Link) (kind : Byte) (body : List Byte) : Option Instr :=
  match kind.toNat with
  | 1 => bare (.claim l) body
  | 2 => oneChar (.renew l) body
  | 3 => bare (.yieldClaim l) body
  | 4 => bare (.askYield l) body
  | 5 => oneChar (.setAdmission l) body
  | 16 => oneChar (.selectSource l) body
  | 17 => bare (.free l) body
  | 18 => bare (.prepare l) body
  | 19 => bare (.play l) body
  | 20 => bare (.pause l) body
  | 21 => bare (.stop l) body
  | 22 => tempoBody l body
  | 23 => streamBody l body
  | 24 => bare (.streamClose l) body
  | 25 => oneChar (.setTrim l) body
  | 32 => strikeBody l body
  | 33 => releaseBody l body
  | 34 => pedalBody l body
  | 48 => recordBody l body
  | 49 => twoChars (.loadProfile l) body
  | 50 => twoChars (.commitProfile l) body
  | 51 => twoChars (.setProtection l) body
  | 64 => bare (.readStatus l) body
  | 65 => oneChar (.readCounters l) body
  | 66 => bare (.clearCounters l) body
  | 67 => oneChar (.readKey l) body
  | 68 => bare (.readQueue l) body
  | 69 => bare (.standby l) body
  | 80 => maskBody l body
  | 81 => oneChar (.setLinkRate l) body
  | 82 => bare (.linkReset l) body
  | _ => some (.unknownRequest l kind body)

/-! ### Writing a request's body (Section 10.7.3) -/

/-- A number in two characters. -/
def chars16 (w : BitVec 16) : List Byte := leBytes 2 w.toNat

/-- The characters of a field, where the options call for it. -/
def optionalField (present : Bool) (field : List Byte) : List Byte := if present then field else []

/-- The body of a request; empty for a command that is no request. -/
def requestBody : Instr → List Byte
  | .renew _ phase => [phase]
  | .setAdmission _ admission => [admission]
  | .selectSource _ source => [source]
  | .setTempo _ period => leBytes 3 period.toNat
  | .streamLines _ count lines => count :: lines.flatMap fun w => leBytes 13 w.toNat
  | .setTrim _ trim => [trim]
  | .liveStrike _ key options velocity offset holdLength =>
      key :: options :: (optionalField (optionFixed options) [velocity]
        ++ optionalField (optionAt options) (chars16 offset)
        ++ optionalField (optionHold options) (chars16 holdLength))
  | .liveRelease _ key options offset => key :: options :: optionalField (optionAt options) (chars16 offset)
  | .livePedal _ pedal options offset => pedal :: options :: optionalField (optionAt options) (chars16 offset)
  | .writeRecord _ selector index contents => selector :: index :: contents
  | .loadProfile _ profile boot => [profile, boot]
  | .commitProfile _ profile boot => [profile, boot]
  | .setProtection _ profile protection => [profile, protection]
  | .readCounters _ group => [group]
  | .readKey _ key => [key]
  | .setNoticeMask _ kinds => chars16 kinds
  | .setLinkRate _ rate => [rate]
  | .unknownRequest _ _ body => body
  | _ => []

/-! ### Frames (R195, R196, Section 10.7.2) -/

/-- The sum of characters, modulo 256. -/
def sumOf (l : List Byte) : Byte := l.foldl (· + ·) 0

/-- A frame: header, length, body, and the check that brings the sum to a multiple of 256 (Section 10.7.2). -/
def frameOf (kind : Byte) (body : List Byte) : List Byte :=
  let front := kind :: BitVec.ofNat 8 body.length :: body
  front ++ [-(sumOf front)]

/-- The code of a result (Section 10.7.3). -/
def Result.code : Result → Byte
  | .ok => 0
  | .accepted => 1
  | .notHolder => 2
  | .heldByOther => 3
  | .alreadyHolder => 4
  | .wrongPhase => 5
  | .notAdmitted => 6
  | .badState => 7
  | .outOfRange => 8
  | .queueFull => 9
  | .clockStopped => 10
  | .storeBusy => 11
  | .protected_ => 12
  | .profileDamaged => 13
  | .supplyCritical => 14
  | .unknownRequest => 15

/-- The code of a FRAME-ERROR reason (Section 10.7.3). -/
def DiscardReason.code : DiscardReason → Byte
  | .noise => 1
  | .framing => 2
  | .mark => 3
  | .truncated => 4
  | .check => 5
  | .badLength => 6

/-- The overrun indication's flags character (Section 10.7.3). -/
def overrunChar (overrun : Bool) : Byte := if overrun then 1 else 0

/-- The characters of a message in transmission as their data values (R195, R196, Section 10.7.3). -/
def Transmission.frame : Transmission → List Byte
  | .message (.response kind result data) overrun =>
    frameOf 160 (kind :: result.code :: overrunChar overrun :: data)
  | .message (.frameError kind reason) overrun => frameOf 161 [kind, reason.code, overrunChar overrun]
  | .notice kinds => frameOf 162 (leBytes 2 kinds.toNat)

/-! ### Characters and their bit times (Sections 10.7.1, 10.7.2) -/

/-- A character's eleven bit times, high or not: the start bit low, the data bits least significant first, the mark bit, the stop bit
high (Section 10.7.1). -/
def characterBits (data : Byte) (mark : Bool) : List Bool :=
  false :: (List.range 8).map (fun i => data.getLsbD i) ++ [mark, true]

/-- The characters of a frame with their marks: 1 for the header, 0 for every other (Section 10.7.2). -/
def marked : List Byte → List (Byte × Bool)
  | [] => []
  | header :: rest => (header, true) :: rest.map fun b => (b, false)

/-- The line as the part drives it for a message, one level a bit time: a break of 12 bit times, the line high for 2 bit times, and
the characters back to back (Section 10.7.1). -/
def Transmission.bits (t : Transmission) : List Bool :=
  List.replicate 12 false ++ [true, true] ++ (marked t.frame).flatMap fun c => characterBits c.1 c.2

end Sys2Proof.Machine
end

