-- ==== Sys2Proof/Machine/Profiles.lean ====
section
/-! DEFINITION. The regulation map's writes and the profile store (chapter 8): WRITE_RECORD, LOAD_PROFILE, COMMIT_PROFILE,
SET_PROTECTION, ERASE_END, COMMIT_COMPLETION, and the start-up load. -/

namespace Sys2Proof.Machine

/-! ### A change of the working map -/

/-- PT stands at a multiple of the step period that has not been stepped (R75). -/
def stepOwed (map : RegulationMap) (pt : Nat) (x : Expression) : Bool :=
  x.owed || (decide (x.lastStep < pt) && decide (pt % stepUnits map = 0))

/-- A change of the step period. While the clock runs, an arrival of PT at this very instant falls together with the write, which is
taken first, and the new period judges it. Any other arrival at or below PT was judged by the old period: what it called for is
still owed, and the next step after it is the next multiple of the new period that PT reaches (R75, R78; log 22). -/
def newStepPeriod (now : Nat) (old new : RegulationMap) (s : Session) (x : Expression) : Expression :=
  if old.expression.stepPeriod = new.expression.stepPeriod ∨ (s.state.clockRuns = true ∧ s.ptSince = now) then x
  else { x with lastStep := max x.lastStep s.pt, owed := stepOwed old s.pt x }

/-- The working map takes new contents: they govern from their next read, and the supply record at once (Section 8.1.4, R150). -/
def changeMap (new : RegulationMap) (supply : Bool) (s : State) : State :=
  let s := { s with
    map := new
    perf := { s.perf with expression := newStepPeriod s.perf.now s.map new s.perf.session s.perf.expression } }
  if supply then onPerf (fun e p => settle e (onInstrument e newSupplyRecord p)) s else s

/-! ### WRITE_RECORD (R153) -/

/-- The claim check of WRITE-RECORD: in the six states of a session in progress the other link must not hold the claim (R153,
R180). -/
def State.mayWrite (s : State) (l : Link) : Bool :=
  !(s.perf.session.state matches .preparing | .cued | .playing | .starved | .paused | .ending) || !s.otherHolds l

/-- The session state check of WRITE-RECORD, for the tracker record alone (R157). -/
def State.mayWriteTracker (s : State) (selector : Byte) : Bool :=
  decide (selector ≠ 3) || (s.perf.session.state matches .idle | .free)

/-- The write names the supply record, which takes effect at once (R150). -/
def RecordWrite.isSupply : RecordWrite → Bool
  | .supply _ => true
  | _ => false

/-- The execution of WRITE-RECORD (R153). -/
def runWriteRecord (l : Link) (selector index : Byte) (contents : List Byte) : State → Reply × State :=
  require (fun s => s.mayWrite l) .notHolder <|
  require (fun s => s.mayWriteTracker selector) .badState <|
  requireValue (recordOf selector index contents) fun w s =>
  (okReply, changeMap (s.map.write w) w.isSupply s)

/-- WRITE_RECORD (R153). -/
def execWriteRecord (l : Link) (selector index : Byte) (contents : List Byte) (s : State) :
    Host.Outcome State Fault Refusal :=
  .next (request l (.writeRecord l selector index contents) (runWriteRecord l selector index contents) s)

/-! ### LOAD_PROFILE (R164, R165) -/

/-- A profile number and a boot flag in range (R164, R166; log 30). -/
def profileAndFlag (profile boot : Byte) : Option (Fin 4 × Bool) :=
  match profileOf profile, flagOf boot with
  | some n, some f => some (n, f)
  | _, _ => none

/-- The store state is IDLE (R159). -/
def State.storeIdle (s : State) : Bool := s.store.commit.isNone

/-- The instrument is quiet: the session IDLE, the queue empty, every key in REST, every pedal in UP and not waiting (R164,
R204). -/
def State.quiet (s : State) : Bool :=
  decide (s.perf.session.state = .idle) && s.perf.queue.entries.isEmpty && keysAtRest s.perf.instrument
    && s.perf.instrument.damper.atRest && s.perf.instrument.shift.atRest

/-- Change the store. -/
def onStore (f : Store → Store) (s : State) : State := { s with store := f s.store }

/-- The load of a profile (R165). -/
def loadProfile (n : Fin 4) (boot : Bool) (s : State) : State :=
  changeMap s.store.profiles[n].contents true
    (onStore (fun t => { t with active := n, bootChoice := if boot then n else t.bootChoice }) s)

/-- The execution of LOAD-PROFILE (R164, R165). -/
def runLoadProfile (l : Link) (profile boot : Byte) : State → Reply × State :=
  require (fun s => !s.otherHolds l) .notHolder <|
  requireValue (profileAndFlag profile boot) fun v =>
  require (fun s => s.storeIdle) .storeBusy <|
  require (fun s => s.quiet) .badState <|
  require (fun s => s.store.profiles[v.1].intact) .profileDamaged fun s =>
  (okReply, loadProfile v.1 v.2 s)

/-- LOAD_PROFILE (R164). -/
def execLoadProfile (l : Link) (profile boot : Byte) (s : State) : Host.Outcome State Fault Refusal :=
  .next (request l (.loadProfile l profile boot) (runLoadProfile l profile boot) s)

/-! ### COMMIT_PROFILE, ERASE_END, COMMIT_COMPLETION (R166, R167) -/

/-- A commit may write a profile of this protection (R160). -/
def Protection.committable (serviceLine : Bool) : Protection → Bool
  | .open_ => true
  | .guarded => serviceLine
  | .lockedUntilPower => false
  | .fixed => false

/-- Change a profile of the store. -/
def Store.onProfile (t : Store) (n : Fin 4) (f : Profile → Profile) : Store :=
  { t with profiles := t.profiles.set n (f t.profiles[n]) }

/-- The acceptance of a commit: the snapshot, the mark INCOMPLETE, and ERASING (R166). The profile's contents stay as they were until
the completion (log 34, the model's choice). -/
def beginCommit (n : Fin 4) (boot : Bool) (s : State) : State :=
  onStore
    (fun t => { t.onProfile n fun p => { p with intact := false } with
      commit := some ⟨n, s.map, boot, s.perf.now, false⟩ }) s

/-- The execution of COMMIT-PROFILE (R166). -/
def runCommitProfile (l : Link) (profile boot : Byte) : State → Reply × State :=
  require (fun s => !s.otherHolds l) .notHolder <|
  requireValue (profileAndFlag profile boot) fun v =>
  require (fun s => s.store.profiles[v.1].protection.committable s.pins.serviceLine) .protected_ <|
  require (fun s => s.storeIdle) .storeBusy fun s =>
  (⟨.accepted, [], none⟩, beginCommit v.1 v.2 s)

/-- COMMIT_PROFILE (R166). -/
def execCommitProfile (l : Link) (profile boot : Byte) (s : State) : Host.Outcome State Fault Refusal :=
  .next (request l (.commitProfile l profile boot) (runCommitProfile l profile boot) s)

/-- The moment of the erase end: 60 ms after acceptance, while ERASING (R167). -/
def Store.eraseEnd (t : Store) : Option Nat :=
  match t.commit with
  | some c => if c.programming then none else some (c.acceptedAt + 60000)
  | none => none

/-- The moment of completion: 180 ms after acceptance, while PROGRAMMING (R167). -/
def Store.completion (t : Store) : Option Nat :=
  match t.commit with
  | some c => if c.programming then some (c.acceptedAt + 180000) else none
  | none => none

/-- The store goes from ERASING to PROGRAMMING (R167). -/
def startProgramming (t : Store) : Store :=
  { t with commit := t.commit.map fun c => { c with programming := true } }

/-- The profile holds the snapshot and is INTACT, the boot choice is set as the boot flag asks, and the store is IDLE (R167). -/
def completeCommit (t : Store) : Store :=
  match t.commit with
  | some c =>
    { t.onProfile c.profile fun p => { p with contents := c.snapshot, intact := true } with
      bootChoice := if c.boot then c.profile else t.bootChoice
      commit := none }
  | none => t

/-- ERASE_END (R167). -/
def execEraseEnd (s : State) : Host.Outcome State Fault Refusal :=
  match s.store.eraseEnd with
  | some t => .next { onStore startProgramming s with perf := advanceTo t s.perf }
  | none => .next s

/-- COMMIT_COMPLETION (R167). -/
def execCommitCompletion (s : State) : Host.Outcome State Fault Refusal :=
  match s.store.completion with
  | some t =>
    let p := advanceTo t s.perf
    .next { onStore completeCommit s with
      perf := { p with instrument := raiseBoth .profileDone p.instrument } }
  | none => .next s

/-! ### SET_PROTECTION (R161) -/

/-- The change of a protection state to another is allowed (R161). -/
def protectionAllowed (serviceLine : Bool) (old new : Protection) : Bool :=
  match old, new with
  | .open_, .fixed => serviceLine
  | .open_, _ => true
  | .guarded, .open_ => serviceLine
  | .guarded, .fixed => serviceLine
  | .guarded, _ => true
  | .lockedUntilPower, .lockedUntilPower => true
  | .lockedUntilPower, .fixed => serviceLine
  | .lockedUntilPower, _ => false
  | .fixed, .fixed => true
  | .fixed, _ => false

/-- A profile number and a protection state in range (R161). -/
def profileAndProtection (profile protection : Byte) : Option (Fin 4 × Protection) :=
  match profileOf profile, protectionOf protection with
  | some n, some x => some (n, x)
  | _, _ => none

/-- The execution of SET-PROTECTION (R161). -/
def runSetProtection (l : Link) (profile protection : Byte) : State → Reply × State :=
  require (fun s => !s.otherHolds l) .notHolder <|
  requireValue (profileAndProtection profile protection) fun v =>
  require (fun s => s.storeIdle) .storeBusy <|
  require (fun s => protectionAllowed s.pins.serviceLine s.store.profiles[v.1].protection v.2) .protected_ fun s =>
  (okReply, onStore (fun t => t.onProfile v.1 fun p => { p with protection := v.2 }) s)

/-- SET_PROTECTION (R161). -/
def execSetProtection (l : Link) (profile protection : Byte) (s : State) : Host.Outcome State Fault Refusal :=
  .next (request l (.setProtection l profile protection) (runSetProtection l profile protection) s)

/-! ### Resets and the start-up load (R162, R168, R169) -/

/-- A commit that a reset cuts short leaves its profile INCOMPLETE with contents that are a free value (R168; log 12). -/
def Store.cutCommit (free : Nat) (t : Store) : Store :=
  match t.commit with
  | some c =>
    { t.onProfile c.profile fun p => { p with contents := Config.undefinedContents free, intact := false } with
      commit := none }
  | none => t

/-- Every LOCKED-UNTIL-POWER profile becomes OPEN (R162). -/
def Store.openLocked (t : Store) : Store :=
  { t with
    profiles := Vector.ofFn fun n =>
      let p := t.profiles[n]
      if p.protection = .lockedUntilPower then { p with protection := .open_ } else p }

/-- The choice of the start-up load: the boot choice when INTACT, else profile 0 with BOOT-FALLBACK set (R169). -/
def Store.startUp (t : Store) : Store :=
  if t.profiles[t.bootChoice].intact then { t with active := t.bootChoice, bootFallback := false }
  else { t with active := 0, bootFallback := true }

end Sys2Proof.Machine
end

