-- ==== Sys2Proof/Machine/Power.lean ====
section
/-! DEFINITION. Standby, the wake, the input pins and the resets (chapter 11, R24, R138): STANDBY, STANDBY_ENTRY, STABILISATION_END,
SERVICE_LINE, ROLL_PRESENT_CHANGE, MONITOR_LEVEL_CHANGE, LINK_RESET, POWER_ON, SUPPLY_FAIL, RESET_LINE, RESET_LINE_DEASSERTION,
LINK_RESET_EXECUTE. -/

namespace Sys2Proof.Machine

/-! ### Standby and the wake (R204, R205) -/

/-- The five conditions of standby hold (R204). -/
def State.mayStandBy (s : State) : Bool := s.quiet && s.storeIdle

/-- The execution of STANDBY: on acceptance the holder becomes NONE, and standby follows the response (R204). -/
def runStandby (l : Link) : State → Reply × State :=
  require (fun s => !s.otherHolds l) .notHolder <|
  require (fun s => s.mayStandBy) .badState fun s =>
  (⟨.ok, [], some .standby⟩, dropClaim s)

/-- STANDBY (R204). -/
def execStandby (l : Link) (s : State) : Host.Outcome State Fault Refusal :=
  .next (request l (.standby l) (runStandby l) s)

/-- A wake event: 8 ms of stabilisation follow (R205). In any state but standby it changes nothing. -/
def wake (s : State) : State :=
  if s.power.state = .standby then
    { s with power := { s.power with state := .waking, wakeEnd := some (s.perf.now + 8000) } }
  else s

/-- A receiver with no message in reception. -/
def LinkRecord.stopReceiving (r : LinkRecord) : LinkRecord := { r with receiver := .waitBreak }

/-- Entry to standby, the five conditions judged again: the receivers watch for a break alone, and a service line already asserted
wakes at once (R204, R205; log 18). -/
def enterStandby (s : State) : State :=
  if s.running && s.mayStandBy then
    let s := { s with
      power := { s.power with state := .standby }
      linkA := s.linkA.stopReceiving
      linkB := s.linkB.stopReceiving }
    if s.pins.serviceLine then wake s else s
  else s

/-- Start the next transmission on a link, when it is UP and the part runs (R194). -/
def resumeSending (l : Link) (s : State) : State :=
  if s.running && (s.link l).up then setLink l (startTransmission (s.link l)) s else s

/-- An action whose response has ended is taken from the link's record. -/
def LinkRecord.done (r : LinkRecord) (a : AfterAction) : LinkRecord := { r with due := r.due.erase a }

/-- STANDBY_ENTRY (R204): at the end of the response of STANDBY on the link. -/
def execStandbyEntry (l : Link) (s : State) : Host.Outcome State Fault Refusal :=
  .next
    (if AfterAction.standby ∈ (s.link l).due then
      resumeSending l (enterStandby (setLink l ((s.link l).done .standby) s))
    else s)

/-! ### The supply monitor (R138, R146 to R148) -/

/-- The level the two indications give (R138). -/
def Pins.level (p : Pins) : MonitorLevel := levelOf p.lowIndication p.criticalIndication

/-- A change of the monitor level: the instrument's part, and the pause of a session at CRITICAL (R26, R146 to R148). -/
def changeMonitor (level : MonitorLevel) (e : Env) (p : Performance) : Performance :=
  let p := onInstrument e (monitorChange level) p
  if level = .critical then criticalSession e p else p

/-- The level at the input reaches the budget when it differs from the level held (R138, R205). -/
def readMonitor (s : State) : State :=
  if s.running && decide (s.pins.level ≠ s.perf.instrument.monitor) then
    onPerf (fun e p => settle e (changeMonitor s.pins.level e p)) s
  else s

/-- Change the levels of the inputs. -/
def setPins (f : Pins → Pins) (s : State) : State := { s with pins := f s.pins }

/-- MONITOR_LEVEL_CHANGE (R138): in standby it acts at no moment until the wake (R204). -/
def execMonitorLevelChange (low critical : Bool) (s : State) : Host.Outcome State Fault Refusal :=
  .next (readMonitor (setPins (fun p => { p with lowIndication := low, criticalIndication := critical }) s))

/-- A receiver at the end of stabilisation: WAIT-BREAK, with break armed when its line is high (R205). -/
def LinkRecord.afterWake (r : LinkRecord) : LinkRecord :=
  { r with receiver := .waitBreak, breakArmed := r.lineHigh }

/-- The end of stabilisation at a moment (R205). -/
def endStabilisation (t : Nat) (s : State) : State :=
  let s := passTo t s
  let s := { s with
    power := { s.power with state := .running, wakeEnd := none }
    linkA := s.linkA.afterWake
    linkB := s.linkB.afterWake }
  resumeSending .b (resumeSending .a (readMonitor s))

/-- The end of stabilisation while WAKING. -/
def Power.wakingUntil (p : Power) : Option Nat := if p.state = .waking then p.wakeEnd else none

/-- STABILISATION_END (R205). -/
def execStabilisationEnd (s : State) : Host.Outcome State Fault Refusal :=
  match s.power.wakingUntil with
  | some t => .next (endStabilisation t s)
  | none => .next s

/-! ### The service line and the roll-present line (R163, R205, R23, R24) -/

/-- SERVICE_LINE (R205): it wakes the part from standby when asserted; elsewhere it is sampled when a request needs it (R163). -/
def execServiceLine (asserted : Bool) (s : State) : Host.Outcome State Fault Refusal :=
  .next
    (let s := setPins (fun p => { p with serviceLine := asserted }) s
     if asserted then wake s else s)

/-- The states in which the removal of a SENSOR roll faults (R24). -/
def SessionState.watchesRoll : SessionState → Bool
  | .preparing => true
  | .cued => true
  | .playing => true
  | .starved => true
  | .paused => true
  | .ending => true
  | _ => false

/-- The removal of the roll in REWINDING: stepping stops, the rest of the count is discarded (R23). -/
def abandonRewind (s : Session) : Session :=
  { s with state := .idle, rewindCount := 0, reverseStepAt := none, rollRemoved := s.rollRemoved + 1 }

/-- What the removal of the roll does to the session (R23, R24). -/
def rollRemoved (e : Env) (p : Performance) : Performance :=
  if p.session.source = .sensor ∧ p.session.state.watchesRoll = true then faultSession e .rollRemoved p
  else if p.session.state = .rewinding then onSession abandonRewind p
  else p

/-- ROLL_PRESENT_CHANGE (R23, R24, R205): its deassertion acts on the session; in standby its assertion wakes the part (log 17). -/
def execRollPresentChange (asserted : Bool) (s : State) : Host.Outcome State Fault Refusal :=
  .next
    (let s' := setPins (fun p => { p with rollPresent := asserted }) s
     if asserted then (if s.pins.rollPresent then s' else wake s') else changePerf rollRemoved s')

/-! ### Resets (R206, R207) -/

/-- The reset came while the power state was STANDBY or WAKING (R206). -/
def PowerState.fromStandby : PowerState → Bool
  | .standby => true
  | .waking => true
  | _ => false

/-- Every block at its reset values over a store that has made its start-up load (R207). Pins, the commands that wait and the
free counter are kept. -/
def startUp (store : Store) (power : Power) (s : State) : State :=
  { s with
    perf := .reset store.profiles[store.active].contents.expression.restLevel s.pins.level
    map := store.profiles[store.active].contents
    store := store
    claim := .reset
    linkA := .reset s.linkA.lineHigh
    linkB := .reset s.linkB.lineHigh
    power := power }

/-- The store after a reset of a kind: a commit cut short, locked profiles opened where the kind calls for it, and the start-up
load (R162, R168, R169). -/
def resetStore (cause : ResetCause) (s : State) : Store :=
  let t := s.store.cutCommit s.freeCount
  (match cause with
    | .powerOn => t.openLocked
    | .supplyFail => t.openLocked
    | .resetLine => t
    | .linkReset => t).startUp

/-- A reset of a kind (R206, R207). While the reset line is asserted the part stays in reset (log 19). A commit cut short uses up
one free value (log 12). -/
def resetPart (cause : ResetCause) (s : State) : State :=
  { startUp (resetStore cause s)
      ⟨if s.pins.resetLine then .held else .running, none, cause, s.power.state.fromStandby⟩ s with
    freeCount := s.freeCount + (if s.store.commit.isSome then 1 else 0) }

/-- POWER_ON (R206). -/
def execPowerOn (s : State) : Host.Outcome State Fault Refusal := .next (resetPart .powerOn s)

/-- SUPPLY_FAIL (R206). -/
def execSupplyFail (s : State) : Host.Outcome State Fault Refusal := .next (resetPart .supplyFail s)

/-- RESET_LINE (R206): the line is asserted, and the part is held in reset. A part already held stays as it is. -/
def execResetLine (s : State) : Host.Outcome State Fault Refusal :=
  .next
    (let s' := setPins (fun p => { p with resetLine := true }) s
     if s.power.state = .held then s' else resetPart .resetLine s')

/-- RESET_LINE_DEASSERTION (R206): start-up begins. -/
def execResetLineDeassertion (s : State) : Host.Outcome State Fault Refusal :=
  .next
    (let s' := setPins (fun p => { p with resetLine := false }) s
     if s.power.state = .held then startUp s.store.startUp { s.power with state := .running } s' else s')

/-- The execution of LINK-RESET: the reset follows the response (R206). -/
def runLinkReset (l : Link) : State → Reply × State :=
  require (fun s => !s.otherHolds l) .notHolder fun s => (⟨.ok, [], some .linkReset⟩, s)

/-- LINK_RESET (R206). -/
def execLinkReset (l : Link) (s : State) : Host.Outcome State Fault Refusal :=
  .next (request l (.linkReset l) (runLinkReset l) s)

/-- LINK_RESET_EXECUTE (R206): the last character of the response of LINK-RESET has been sent, or its link went DOWN. -/
def execLinkResetExecute (l : Link) (s : State) : Host.Outcome State Fault Refusal :=
  .next (if AfterAction.linkReset ∈ (s.link l).due then resetPart .linkReset s else s)

end Sys2Proof.Machine
end

