-- ==== Sys2Proof/Machine/Links.lean ====
section
/-! DEFINITION. The link controllers (chapter 10): characters, breaks and the receiver, discard records, the end of a message,
notices, the notice mask, the link rate, and a link going DOWN and coming UP. -/

namespace Sys2Proof.Machine

/-! ### Characters (R188) -/

/-- How many of the three samples of a bit time are high. -/
def highSamples (samples : BitVec 33) (i : Nat) : Nat :=
  (samples.getLsbD (3 * i)).toNat + (samples.getLsbD (3 * i + 1)).toNat + (samples.getLsbD (3 * i + 2)).toNat

/-- The majority value of a bit time. -/
def majority (samples : BitVec 33) (i : Nat) : Bool := decide (2 ≤ highSamples samples i)

/-- The three samples of a bit time are not all alike. -/
def unlike (samples : BitVec 33) (i : Nat) : Bool :=
  decide (highSamples samples i = 1) || decide (highSamples samples i = 2)

/-- The character is NOISY. -/
def noisy (samples : BitVec 33) : Bool := (List.range 11).any (unlike samples)

/-- The data value: bit times 1 to 8, least significant first. -/
def dataOf (samples : BitVec 33) : Byte :=
  BitVec.ofNat 8 ((List.range 8).foldl (fun acc i => acc + (majority samples (i + 1)).toNat * 2 ^ i) 0)

/-- What a character is to the receiver: clean with a data value and a mark, or spoilt with the reason of its discard. -/
inductive Received where
  | clean (data : Byte) (mark : Bool)
  | spoilt (reason : DiscardReason)
  deriving DecidableEq, Repr

/-- The character that samples make; absent when the start bit's majority is high (R188; log 11). -/
def receivedOf (samples : BitVec 33) : Option Received :=
  if majority samples 0 then none
  else
    let framing := !majority samples 10
    if noisy samples && framing then
      some (.spoilt (if Config.noisyFramingIsNoise samples then .noise else .framing))
    else if noisy samples then some (.spoilt .noise)
    else if framing then some (.spoilt .framing)
    else some (.clean (dataOf samples) (majority samples 9))

/-! ### The receiver (R191, R192) -/

/-- The header kind of the message in reception, 0 when none was taken (R192). -/
def Receiver.kind : Receiver → Byte
  | .waitBreak => 0
  | .awaitHeader => 0
  | .awaitLength k _ => k
  | .body k _ _ _ => k
  | .awaitCheck k _ _ _ => k

/-- Discard the message in reception: its discard record is offered to the slots (R192). -/
def discard (reason : DiscardReason) (next : Receiver) (r : LinkRecord) : LinkRecord :=
  { offer (.discard reason r.receiver.kind) r with receiver := next }

/-- A message is complete: its check and its length are judged, and it is offered to a slot as a request or as a discard
(R192). -/
def complete (l : Link) (kind : Byte) (body : List Byte) (sum : Byte) (r : LinkRecord) : LinkRecord :=
  if sum ≠ 0 then discard .check .waitBreak r
  else
    match requestOf l kind body with
    | some c => { offer (.request c) r with receiver := .waitBreak }
    | none => discard .badLength .waitBreak r

/-- A clean character with mark 0 (R191). -/
def takeData (l : Link) (data : Byte) (r : LinkRecord) : LinkRecord :=
  match r.receiver with
  | .waitBreak => { r with stray := r.stray + 1 }
  | .awaitHeader => discard .mark .waitBreak r
  | .awaitLength k sum =>
    if 250 < data.toNat then discard .badLength .waitBreak r
    else if data = 0 then { r with receiver := .awaitCheck k 0 [] (sum + data) }
    else { r with receiver := .body k data [] (sum + data) }
  | .body k n got sum =>
    let got := got ++ [data]
    if n.toNat ≤ got.length then { r with receiver := .awaitCheck k n got (sum + data) }
    else { r with receiver := .body k n got (sum + data) }
  | .awaitCheck k _ got sum => complete l k got (sum + data) r

/-- A clean character with mark 1 (R191). -/
def takeMarked (data : Byte) (r : LinkRecord) : LinkRecord :=
  match r.receiver with
  | .waitBreak => { r with stray := r.stray + 1 }
  | .awaitHeader => { r with receiver := .awaitLength data data }
  | _ => discard .mark .waitBreak r

/-- A NOISY character or a framing error (R191). -/
def takeSpoilt (reason : DiscardReason) (r : LinkRecord) : LinkRecord :=
  match r.receiver with
  | .waitBreak => { r with stray := r.stray + 1 }
  | _ => discard reason .waitBreak r

/-- The receiver takes a character (R191). -/
def takeCharacter (l : Link) (c : Received) (r : LinkRecord) : LinkRecord :=
  match c with
  | .clean data false => takeData l data r
  | .clean data true => takeMarked data r
  | .spoilt reason => takeSpoilt reason r

/-- The link receives: it is UP and the part runs. -/
def State.receives (s : State) (l : Link) : Bool := s.running && (s.link l).up

/-- The line as a character leaves it: high after a high stop bit, which arms the break (R188, R189; log 24). -/
def lineAfter (samples : BitVec 33) (r : LinkRecord) : LinkRecord :=
  { r with lineHigh := true, breakArmed := r.breakArmed || majority samples 10 }

/-- CHARACTER (R188, R191). -/
def execCharacter (l : Link) (samples : BitVec 33) (s : State) : Host.Outcome State Fault Refusal :=
  .next
    (if s.receives l then
      match receivedOf samples with
      | some c => setLink l (takeCharacter l c (lineAfter samples (s.link l))) s
      | none => s
    else s)

/-! ### Breaks and idle (R189, R191, R205) -/

/-- The receiver takes a break (R191). -/
def takeBreak (r : LinkRecord) : LinkRecord :=
  match r.receiver with
  | .waitBreak => { r with receiver := .awaitHeader }
  | _ => discard .truncated .awaitHeader r

/-- The line is low and the break has been seen (R189). -/
def LinkRecord.disarm (r : LinkRecord) : LinkRecord := { r with breakArmed := false, lineHigh := false }

/-- BREAK (R189): a message opens, or the one in reception is cut; in standby the break wakes the part and opens none (R205). -/
def execBreak (l : Link) (s : State) : Host.Outcome State Fault Refusal :=
  .next
    (let r := s.link l
     if r.up && r.breakArmed then
       match s.power.state with
       | .running => setLink l (takeBreak r.disarm) s
       | .standby => wake (setLink l r.disarm s)
       | .waking => setLink l { r with lineHigh := false } s
       | .held => s
     else setLink l { r with lineHigh := false } s)

/-- BREAK_REARM (R189): the line has been high for 1 bit time without a break. -/
def execBreakRearm (l : Link) (s : State) : Host.Outcome State Fault Refusal :=
  .next (setLink l { s.link l with breakArmed := true, lineHigh := true } s)

/-- IDLE_TRUNCATION (R191): the line has been high for 20 character times inside a message. -/
def execIdleTruncation (l : Link) (s : State) : Host.Outcome State Fault Refusal :=
  .next
    (let r := s.link l
     if s.receives l && decide (r.receiver ≠ .waitBreak) then
       setLink l { discard .truncated .waitBreak r with breakArmed := true, lineHigh := true } s
     else s)

/-! ### The link going DOWN and coming UP (R190) -/

/-- The actions that responses not yet ended, or just ended, call for (R194). -/
def LinkRecord.afterActions (r : LinkRecord) : List AfterAction := r.due ++ r.slots.filterMap Slot.after

/-- A link's record as it goes DOWN: slots, transmit queue and reception emptied, the rate reset; a LINK-RESET whose response is cut
is to be carried out (R187, R190, R206). -/
def LinkRecord.goDown (r : LinkRecord) : LinkRecord :=
  { r with
    up := false
    rate := .r500k
    receiver := .waitBreak
    breakArmed := true
    slots := []
    transmitQueue := []
    sending := none
    overrunFlag := false
    lineHigh := false
    due := r.afterActions.filter fun a => decide (a = .linkReset) }

/-- LINK_DOWN (R190): the line has been low for 50 ms. The claim of the link lapses (R175); a STANDBY whose response is cut is
carried out at this moment (R204; log 25). -/
def execLinkDown (l : Link) (s : State) : Host.Outcome State Fault Refusal :=
  .next
    (let r := s.link l
     if r.up then
       let s := setLink l r.goDown s
       let s := if s.holds l then lapseClaim s else s
       if AfterAction.standby ∈ r.afterActions then enterStandby s else s
     else s)

/-- LINK_UP (R190): the line has been high for 1 ms. A part held in reset takes no event (R207). -/
def execLinkUp (l : Link) (s : State) : Host.Outcome State Fault Refusal :=
  .next
    (let r := s.link l
     if r.up || decide (s.power.state = .held) then s
     else setLink l { r with up := true, receiver := .waitBreak, lineHigh := true } s)

/-! ### Discard records, the end of a message, notices (R193 to R196) -/

/-- DISCARD_RECORD (R194): the discard record that is next is answered with a FRAME-ERROR message. -/
def execDiscardRecord (l : Link) (s : State) : Host.Outcome State Fault Refusal :=
  .next
    (if s.receives l then
      match nextItem (s.link l).slots with
      | some (.discard reason kind) => setLink l (answer (.frameError kind reason) none (s.link l)) s
      | _ => s
    else s)

/-- The slot of the message just sent becomes empty, and its action is to be carried out (R193, R194). -/
def freeSlot (r : LinkRecord) : LinkRecord :=
  match r.slots with
  | x :: rest => if x.answered then { r with slots := rest, due := r.due ++ x.after.toList } else r
  | [] => r

/-- The record when the last character of the message in transmission has been sent (R193, R194). -/
def LinkRecord.sent (r : LinkRecord) : LinkRecord :=
  match r.sending with
  | some (.message _ _) => freeSlot { r with sending := none }
  | some (.notice _) => { r with sending := none }
  | none => r

/-- MESSAGE_SENT (R193, R194): the next message begins, unless the part is in standby or stabilisation (log 18). -/
def execMessageSent (l : Link) (s : State) : Host.Outcome State Fault Refusal :=
  .next (resumeSending l (setLink l (s.link l).sent s))

/-- The kinds that a notice of the link would carry now: pending and enabled (R196). -/
def State.noticeKinds (s : State) (l : Link) : Notices := pendingNotices l s.perf.instrument &&& (s.link l).mask

/-- A notice may be sent on the link: UP, nothing queued or in transmission, and a pending kind enabled (R196). -/
def State.noticeReady (s : State) (l : Link) : Bool :=
  s.receives l && (s.link l).transmitQueue.isEmpty && (s.link l).sending.isNone && (s.link l).due.isEmpty
    && decide (s.noticeKinds l ≠ 0)

/-- NOTICE (R196): the notice carries every pending kind that is enabled, and those kinds leave the pending set. -/
def execNotice (l : Link) (s : State) : Host.Outcome State Fault Refusal :=
  .next
    (if s.noticeReady l then
      let kinds := s.noticeKinds l
      setLink l { s.link l with sending := some (.notice kinds) }
        (mapInstrument (fun i => setPendingNotices l (pendingNotices l i &&& ~~~kinds) i) s)
    else s)

/-! ### SET_NOTICE_MASK, SET_LINK_RATE, UNKNOWN_REQUEST (R197, R198, R192) -/

/-- The execution of SET-NOTICE-MASK (R197). -/
def runSetNoticeMask (l : Link) (kinds : BitVec 16) : State → Reply × State :=
  requireValue (noticesOf kinds) fun mask s => (okReply, setLink l { s.link l with mask := mask } s)

/-- SET_NOTICE_MASK (R197). -/
def execSetNoticeMask (l : Link) (kinds : BitVec 16) (s : State) : Host.Outcome State Fault Refusal :=
  .next (request l (.setNoticeMask l kinds) (runSetNoticeMask l kinds) s)

/-- The execution of SET-LINK-RATE: a request to the rate in use at this moment changes nothing; else the change follows the response
(R198). -/
def runSetLinkRate (l : Link) (rate : Byte) : State → Reply × State :=
  requireValue (rateOf rate) fun r s =>
  (if r = (s.link l).rate then okReply else ⟨.ok, [], some (.rate r)⟩, s)

/-- SET_LINK_RATE (R198). -/
def execSetLinkRate (l : Link) (rate : Byte) (s : State) : Host.Outcome State Fault Refusal :=
  .next (request l (.setLinkRate l rate) (runSetLinkRate l rate) s)

/-- The first rate change that is to be carried out. -/
def dueRate : List AfterAction → Option Rate
  | [] => none
  | .rate r :: _ => some r
  | _ :: rest => dueRate rest

/-- The change of rate at the end of its response: a message in reception is discarded TRUNCATED, and the receiver waits for a break,
armed (R198; log 36). -/
def LinkRecord.changeRate (rate : Rate) (r : LinkRecord) : LinkRecord :=
  let r' := if r.receiver = .waitBreak then r else discard .truncated .waitBreak r
  { r' with rate := rate, breakArmed := true }

/-- LINK_RATE_CHANGE (R198): the last character of the response of SET-LINK-RATE has been sent. -/
def execLinkRateChange (l : Link) (s : State) : Host.Outcome State Fault Refusal :=
  .next
    (match dueRate (s.link l).due with
    | some rate => resumeSending l (setLink l (((s.link l).done (.rate rate)).changeRate rate) s)
    | none => s)

/-- The execution of a request whose kind names none (R192). -/
def runUnknownRequest (s : State) : Reply × State := (refuse .unknownRequest, s)

/-- UNKNOWN_REQUEST (R192). -/
def execUnknownRequest (l : Link) (kind : Byte) (body : List Byte) (s : State) : Host.Outcome State Fault Refusal :=
  .next (request l (.unknownRequest l kind body) runUnknownRequest s)

end Sys2Proof.Machine
end

