-- ==== Sys2Proof/Machine/Live.lean ====
section
/-! DEFINITION. Live play (Section 9.5): LIVE_STRIKE, LIVE_RELEASE and LIVE_PEDAL, checked in the order of R182. -/

namespace Sys2Proof.Machine

/-- The link is admitted (R179). -/
def State.admits (s : State) (l : Link) : Bool :=
  match s.claim.admission with
  | .both => true
  | .holder => s.holds l
  | .none => false

/-- The supply is not CRITICAL (R182). -/
def State.supplied (s : State) : Bool := decide (s.perf.instrument.monitor ≠ .critical)

/-- The performance clock runs (R182). -/
def State.clockRuns (s : State) : Bool := s.perf.session.state.clockRuns

/-- The checks of a live request after its value check: supply, clock and queue (R182). -/
def requireLive (needsClock : Bool) (places : Nat) (next : State → Reply × State) : State → Reply × State :=
  require (fun s => s.supplied) .supplyCritical <|
  require (fun s => !needsClock || s.clockRuns) .clockStopped <|
  require (fun s => s.perf.queue.hasRoom places) .queueFull next

/-- The sounding time of a live entry: a PT and what lies after it, capped (R57, R58). -/
def liveSounding (t : Nat) (after : BitVec 16) : Nat := min ptMax (t + after.toNat)

/-- Insert an entry of a link (R57). -/
def insertLive (e : Env) (l : Link) (a : Action) (sounding : Nat) (p : Performance) : Performance :=
  insertEntry e (newEntry e.map a (originOf l) sounding none p.queue) p

/-- The sequence number the next entry takes, as response data (R195). -/
def sequenceData (s : State) : List Byte := leBytes 2 s.perf.queue.nextSequence.toNat

/-! ### LIVE_STRIKE (R183) -/

/-- The fields of a live strike as its check admits them. -/
structure LiveStrikeFields where
  key : Key
  mode : VelocityMode
  at_ : Bool
  hold : Option (BitVec 16)

/-- The value check of LIVE-STRIKE: the key, the unused option bits, and a hold length of 0 (R182, R200). -/
def liveStrikeFields (key options velocity : Byte) (holdLength : BitVec 16) : Option LiveStrikeFields :=
  if strikeOptionsValid options && !(optionHold options && decide (holdLength = 0)) then
    (keyOf key).map fun k =>
      { key := k
        mode := if optionFixed options then .fixed velocity.toNat else .expression
        at_ := optionAt options
        hold := if optionHold options then some holdLength else none }
  else none

/-- The queue places a live strike needs (R182). -/
def LiveStrikeFields.places (x : LiveStrikeFields) : Nat := x.at_.toNat + x.hold.isSome.toNat

/-- A strike with AT timing: its STRIKE entry, then the RELEASE of its hold length (R57, R58). -/
def strikeAt (l : Link) (x : LiveStrikeFields) (offset : BitVec 16) (e : Env) (p : Performance) : Performance :=
  let sounding := liveSounding p.session.pt offset
  let strike := Action.strike x.key false x.mode (x.hold.map BitVec.toNat)
  match x.hold with
  | none => insertLive e l strike sounding p
  | some h =>
    insertLive e l (.release x.key) (liveSounding sounding h) (insertLive e l strike sounding p)

/-- A strike with NOW timing: the RELEASE of its hold length is inserted, and the strike arrives at the key, counting ACCEPTED
(R58, R183). -/
def strikeNow (l : Link) (x : LiveStrikeFields) (e : Env) (p : Performance) : Performance :=
  let p :=
    match x.hold with
    | none => p
    | some h => insertLive e l (.release x.key) (liveSounding p.session.pt h) p
  let p := { p with instrument := { p.instrument with accepted := p.instrument.accepted + 1 } }
  onInstrument e (arrive p.expression x.key ⟨originOf l, none, false, x.mode⟩) p

/-- The sequence numbers that a live strike's entries take, as response data: the STRIKE's, then the RELEASE's (R195). -/
def strikeData (x : LiveStrikeFields) (s : State) : List Byte :=
  let first := s.perf.queue.nextSequence
  (if x.at_ then leBytes 2 first.toNat else [])
    ++ (if x.hold.isSome then leBytes 2 (if x.at_ then first + 1 else first).toNat else [])

/-- The execution of LIVE-STRIKE (R182, R183). -/
def runLiveStrike (l : Link) (key options velocity : Byte) (offset holdLength : BitVec 16) :
    State → Reply × State :=
  require (fun s => s.admits l) .notAdmitted <|
  requireValue (liveStrikeFields key options velocity holdLength) fun x =>
  requireLive (x.at_ || x.hold.isSome) x.places fun s =>
  (okWith (strikeData x s),
    onPerf (fun e p => settle e (if x.at_ then strikeAt l x offset e p else strikeNow l x e p)) s)

/-- LIVE_STRIKE (R183). -/
def execLiveStrike (l : Link) (key options velocity : Byte) (offset holdLength : BitVec 16) (s : State) :
    Host.Outcome State Fault Refusal :=
  .next (request l (.liveStrike l key options velocity offset holdLength)
    (runLiveStrike l key options velocity offset holdLength) s)

/-! ### LIVE_RELEASE and LIVE_PEDAL (R184, R185) -/

/-- A live request whose action is entered in the queue with AT timing, and goes to its block with NOW timing (R184, R185). -/
def actLive (l : Link) (at_ : Bool) (offset : BitVec 16) (a : Action) (now : Moment → Instrument → Instrument) :
    State → Reply × State :=
  requireLive at_ at_.toNat fun s =>
  (okWith (if at_ then sequenceData s else []),
    onPerf (fun e p => settle e
      (if at_ then insertLive e l a (liveSounding p.session.pt offset) p else onInstrument e now p)) s)

/-- The value check of LIVE-RELEASE (R182, R200). -/
def liveReleaseKey (key options : Byte) : Option Key :=
  if releaseOptionsValid options then keyOf key else none

/-- The execution of LIVE-RELEASE (R184). -/
def runLiveRelease (l : Link) (key options : Byte) (offset : BitVec 16) : State → Reply × State :=
  require (fun s => s.admits l) .notAdmitted <|
  requireValue (liveReleaseKey key options) fun k =>
  actLive l (optionAt options) offset (.release k) (release k (originOf l))

/-- LIVE_RELEASE (R184). -/
def execLiveRelease (l : Link) (key options : Byte) (offset : BitVec 16) (s : State) :
    Host.Outcome State Fault Refusal :=
  .next (request l (.liveRelease l key options offset) (runLiveRelease l key options offset) s)

/-- The value check of LIVE-PEDAL (R182, R200). -/
def livePedalName (pedal options : Byte) : Option PedalName :=
  if pedalOptionsValid options then pedalOf pedal else none

/-- The action of a LIVE-PEDAL by its direction (R185). -/
def pedalAction (p : PedalName) (up : Bool) : Action := if up then .pedalUp p else .pedalDown p

/-- What a pedal does at once at a down or an up of a link (R185). -/
def pedalNow (l : Link) (p : PedalName) (up : Bool) : Moment → Instrument → Instrument :=
  if up then pedalUp p (originOf l) else pedalDown p (originOf l)

/-- The execution of LIVE-PEDAL (R185). -/
def runLivePedal (l : Link) (pedal options : Byte) (offset : BitVec 16) : State → Reply × State :=
  require (fun s => s.admits l) .notAdmitted <|
  requireValue (livePedalName pedal options) fun p =>
  actLive l (optionAt options) offset (pedalAction p (optionUp options)) (pedalNow l p (optionUp options))

/-- LIVE_PEDAL (R185). -/
def execLivePedal (l : Link) (pedal options : Byte) (offset : BitVec 16) (s : State) :
    Host.Outcome State Fault Refusal :=
  .next (request l (.livePedal l pedal options offset) (runLivePedal l pedal options offset) s)

end Sys2Proof.Machine
end

