-- ==== Sys2Proof/Machine/SessionRequests.lean ====
section
/-! DEFINITION. The session requests (Sections 1.2 to 1.10) and SET-TRIM (R79): each is checked in the order of R3, the claim, the
session state, the values, and the first check that fails gives the response. -/

namespace Sys2Proof.Machine

/-- Accept: answer OK, and change the performance, with what follows every change. -/
def accept (f : Env → Performance → Performance) (s : State) : Reply × State :=
  (okReply, onPerf (fun e p => settle e (f e p)) s)

/-- The session is in one of the states. -/
def State.sessionIn (s : State) (states : List SessionState) : Bool :=
  states.contains s.perf.session.state

/-! ### SELECT_SOURCE, FREE, PREPARE -/

/-- The execution of SELECT-SOURCE (R3). -/
def runSelectSource (l : Link) (code : Byte) : State → Reply × State :=
  require (fun s => s.holds l) .notHolder <|
  require (fun s => s.sessionIn [.idle]) .badState <|
  requireValue (sourceOf code) fun source =>
  accept fun _ => onSession fun s => { s with source := source }

/-- SELECT_SOURCE (R3). -/
def execSelectSource (l : Link) (source : Byte) (s : State) : Host.Outcome State Fault Refusal :=
  .next (request l (.selectSource l source) (runSelectSource l source) s)

/-- The session record at FREE (R4). -/
def freeSession (s : Session) : Session :=
  { s with state := .free, pt := 0, ptFraction := 0, pauseCause := .none, faultCause := .none }

/-- The expression halves take their session-start values (R72). -/
def startExpression (e : Env) (p : Performance) : Performance :=
  { p with expression := p.expression.startSession e.map }

/-- The execution of FREE (R4). -/
def runFree (l : Link) : State → Reply × State :=
  require (fun s => s.holds l) .notHolder <|
  require (fun s => s.sessionIn [.idle]) .badState <|
  accept fun e p => launchDue e (startExpression e (onSession freeSession p))

/-- FREE (R4). -/
def execFree (l : Link) (s : State) : Host.Outcome State Fault Refusal :=
  .next (request l (.free l) (runFree l) s)

/-- The session record at PREPARE: with SENSOR threading begins, with STREAM the stream becomes OPEN (R5, R6, R8). -/
def prepareSession (now : Nat) (s : Session) : Session :=
  { s with
    state := .preparing
    pt := 0
    ptFraction := 0
    rollPosition := 0
    lastPosition := 0
    rewindCount := 0
    pauseCause := .none
    faultCause := .none
    frameIndex := 0
    newFrame := false
    intervalEnd := if s.source = .sensor then some (now + threadingPeriod) else none
    awaitingImage := false
    threadingLines := 0
    threadingStable := false
    streamBuffer := []
    streamOpen := decide (s.source = .stream) }

/-- The execution of PREPARE (R5). -/
def runPrepare (l : Link) : State → Reply × State :=
  require (fun s => s.holds l) .notHolder <|
  require (fun s => s.sessionIn [.idle]) .badState <|
  require (fun s => decide (s.perf.session.source = .stream) || s.pins.rollPresent) .badState <|
  accept fun e p =>
    startExpression e (onSession (prepareSession p.now) { p with detector := p.detector.prepare })

/-- PREPARE (R5). -/
def execPrepare (l : Link) (s : State) : Host.Outcome State Fault Refusal :=
  .next (request l (.prepare l) (runPrepare l) s)

/-! ### PLAY, PAUSE, STOP -/

/-- The session goes to its resume target, PLAYING from CUED: PLAYING begins a frame at index 0 (R9, R10, R19). -/
def resumeSession (now : Nat) (s : Session) : Session :=
  if s.resumeTarget = some .ending then
    { s with state := .ending, resumeTarget := none, pauseCause := .none }
  else
    beginInterval now
      { s with
        state := .playing
        resumeTarget := none
        pauseCause := .none
        frameIndex := 0
        newFrame := false }

/-- The execution of PLAY (R9, R19, R59). -/
def runPlay (l : Link) : State → Reply × State :=
  require (fun s => s.holds l) .notHolder <|
  require (fun s => s.sessionIn [.cued, .paused]) .badState <|
  require (fun s => decide (s.perf.instrument.monitor ≠ .critical)) .supplyCritical <|
  accept fun e p => launchDue e (onSession (resumeSession p.now) p)

/-- PLAY (R9). -/
def execPlay (l : Link) (s : State) : Host.Outcome State Fault Refusal :=
  .next (request l (.play l) (runPlay l) s)

/-- The execution of PAUSE (R19). -/
def runPause (l : Link) : State → Reply × State :=
  require (fun s => s.holds l) .notHolder <|
  require (fun s => s.sessionIn [.playing, .starved]) .badState <|
  accept fun e p => pauseSession e .request p

/-- PAUSE (R19). -/
def execPause (l : Link) (s : State) : Host.Outcome State Fault Refusal :=
  .next (request l (.pause l) (runPause l) s)

/-- The execution of STOP (R20). -/
def runStop (l : Link) : State → Reply × State :=
  require (fun s => s.holds l) .notHolder <|
  require (fun s => !s.sessionIn [.idle, .rewinding]) .badState <|
  accept fun e p => stopSession e p

/-- STOP (R20). -/
def execStop (l : Link) (s : State) : Host.Outcome State Fault Refusal :=
  .next (request l (.stop l) (runStop l) s)

/-! ### SET_TEMPO -/

/-- The tempo period carried is in its range (R18). -/
def tempoOf (period : BitVec 24) : Option Nat :=
  if inRange 32000 200000 period.toNat then some period.toNat else none

/-- A new tempo period: the next interval to begin is index 0, the roll entries are rescaled about PT, and those then due launch
(R18, R64, R65). -/
def changeTempo (new : Nat) (e : Env) (p : Performance) : Performance :=
  launchDue e
    (onSession (fun s => { s with tempo := new, newFrame := true })
      { p with queue := p.queue.rescale p.session.pt new p.session.tempo })

/-- The execution of SET-TEMPO (R18). -/
def runSetTempo (l : Link) (period : BitVec 24) : State → Reply × State :=
  require (fun s => s.holds l) .notHolder <|
  require (fun s => !s.sessionIn [.idle, .rewinding]) .badState <|
  requireValue (tempoOf period) fun new =>
  accept (changeTempo new)

/-- SET_TEMPO (R18). -/
def execSetTempo (l : Link) (period : BitVec 24) (s : State) : Host.Outcome State Fault Refusal :=
  .next (request l (.setTempo l period) (runSetTempo l period) s)

/-! ### STREAM_LINES, STREAM_CLOSE -/

/-- The track lines the stream buffer can hold (R13). -/
def streamCapacity : Nat := 128

/-- Stream requests are taken: source STREAM, the stream OPEN, and a state that takes lines (R16). -/
def Session.takesStream (s : Session) : Bool := decide (s.source = .stream) && s.streamOpen && s.steps

/-- The count of a STREAM-LINES request is 1 to 16 (R16). -/
def streamCountOf (count : Byte) : Option Nat :=
  if inRange 1 16 count.toNat then some count.toNat else none

/-- Append track lines for as many as the buffer has room for (R16). -/
def appendLines (lines : List TrackLine) (s : Session) : Session :=
  { s with streamBuffer := s.streamBuffer ++ lines.take (streamCapacity - s.streamBuffer.length) }

/-- The execution of STREAM-LINES: the response carries the count accepted and the free space after what the lines set off
(R16). -/
def runStreamLines (l : Link) (count : Byte) (lines : List (BitVec 104)) : State → Reply × State :=
  require (fun s => s.holds l) .notHolder <|
  require (fun s => s.perf.session.takesStream) .badState <|
  requireValue (streamCountOf count) fun _ s =>
  let s' := (accept (fun e p => streamChanged e (onSession (appendLines (lines.map trackLineOf)) p)) s).2
  let accepted := min lines.length (streamCapacity - s.perf.session.streamBuffer.length)
  (okWith (leBytes 1 accepted ++ leBytes 1 (streamCapacity - s'.perf.session.streamBuffer.length)), s')

/-- STREAM_LINES (R16). -/
def execStreamLines (l : Link) (count : Byte) (lines : List (BitVec 104)) (s : State) :
    Host.Outcome State Fault Refusal :=
  .next (request l (.streamLines l count lines) (runStreamLines l count lines) s)

/-- The execution of STREAM-CLOSE (R17). -/
def runStreamClose (l : Link) : State → Reply × State :=
  require (fun s => s.holds l) .notHolder <|
  require (fun s => s.perf.session.takesStream) .badState <|
  accept fun e p => streamChanged e (onSession (fun s => { s with streamOpen := false }) p)

/-- STREAM_CLOSE (R17). -/
def execStreamClose (l : Link) (s : State) : Host.Outcome State Fault Refusal :=
  .next (request l (.streamClose l) (runStreamClose l) s)

/-! ### SET_TRIM (R79) -/

/-- A trim, 0 to 7 (R79). -/
def trimOf (trim : Byte) : Option Nat := if trim.toNat ≤ 7 then some trim.toNat else none

/-- The execution of SET-TRIM (R79). -/
def runSetTrim (l : Link) (trim : Byte) : State → Reply × State :=
  require (fun s => s.holds l) .notHolder <|
  requireValue (trimOf trim) fun new s =>
  (okReply, onPerf (fun _ p => { p with expression := { p.expression with trim := new } }) s)

/-- SET_TRIM (R79). -/
def execSetTrim (l : Link) (trim : Byte) (s : State) : Host.Outcome State Fault Refusal :=
  .next (request l (.setTrim l trim) (runSetTrim l trim) s)

end Sys2Proof.Machine
end

