-- ==== Sys2Proof/Machine/Status.lean ====
section
/-! DEFINITION. The reading requests (Section 11.1): READ_STATUS, READ_COUNTERS, CLEAR_COUNTERS, READ_KEY, READ_QUEUE, and the
layouts of what they return (Sections 10.7.7, 10.7.8). -/

namespace Sys2Proof.Machine

/-! ### The status record (R201, Section 10.7.7) -/

/-- The code of a session state. -/
def SessionState.code : SessionState → Nat
  | .idle => 0
  | .free => 1
  | .preparing => 2
  | .cued => 3
  | .playing => 4
  | .starved => 5
  | .paused => 6
  | .ending => 7
  | .rewinding => 8
  | .faulted => 9

/-- The code of a source. -/
def Source.code : Source → Nat
  | .sensor => 0
  | .stream => 1

/-- The code of a fault cause. -/
def FaultCause.code : FaultCause → Nat
  | .none => 0
  | .trackLost => 1
  | .threadFault => 2
  | .sensorFault => 3
  | .rollRemoved => 4

/-- The code of a pause cause. -/
def PauseCause.code : PauseCause → Nat
  | .none => 0
  | .request => 1
  | .lapse => 2
  | .supply => 3

/-- The code of the claim holder. -/
def holderCode (c : Claim) : Nat :=
  match c.held with
  | none => 0
  | some h => match h.link with | .a => 1 | .b => 2

/-- The lease remaining in whole ms, 0 while the holder is NONE (R171, R201). -/
def leaseRemaining (s : State) : Nat :=
  match s.claim.held with
  | none => 0
  | some h => (h.leaseEnd - s.perf.now) / 1000

/-- The code of an admission. -/
def Admission.code : Admission → Nat
  | .none => 0
  | .holder => 1
  | .both => 2

/-- The code of a monitor level. -/
def MonitorLevel.code : MonitorLevel → Nat
  | .normal => 0
  | .low => 1
  | .critical => 2

/-- The code of the store state, and the profile being committed (R201). -/
def storeCodes (t : Store) : Nat × Nat :=
  match t.commit with
  | none => (0, 0)
  | some c => (if c.programming then 2 else 1, c.profile.val)

/-- The code of a protection state. -/
def Protection.code : Protection → Nat
  | .open_ => 0
  | .guarded => 1
  | .lockedUntilPower => 2
  | .fixed => 3

/-- A profile's character: its protection, with bit 7 set for INCOMPLETE. -/
def profileChar (p : Profile) : Nat := p.protection.code + (if p.intact then 0 else 128)

/-- The code of a reset cause. -/
def ResetCause.code : ResetCause → Nat
  | .powerOn => 0
  | .supplyFail => 1
  | .resetLine => 2
  | .linkReset => 3

/-- The code of the power state; 0 RUNNING, the one state a request is executed in (R201). -/
def PowerState.code : PowerState → Nat
  | .running => 0
  | _ => 1

/-- The fields of the status record with their widths in characters. -/
def statusFields (s : State) : List (Nat × Nat) :=
  let x := s.perf.session
  let i := s.perf.instrument
  [(1, x.state.code), (1, x.source.code), (1, x.faultCause.code), (1, x.pauseCause.code),
    (3, x.lastPosition), (4, x.pt), (3, x.tempo),
    (1, holderCode s.claim), (2, leaseRemaining s), (1, s.claim.admission.code),
    (2, s.perf.queue.entries.length),
    (1, i.monitor.code), (1, i.effective s.map), (1, i.unitsInUse),
    (1, (storeCodes s.store).1), (1, (storeCodes s.store).2),
    (1, s.store.active.val), (1, s.store.bootChoice.val), (1, s.store.bootFallback.toNat)]
    ++ s.store.profiles.toList.map (fun p => (1, profileChar p))
    ++ [(1, s.power.resetCause.code), (1, s.power.fromStandby.toNat), (1, s.power.state.code)]

/-- Fields laid out one after another. -/
def layOut (fields : List (Nat × Nat)) : List Byte := fields.flatMap fun f => leBytes f.1 f.2

/-- The status record. -/
def statusRecord (s : State) : List Byte := layOut (statusFields s)

/-- The execution of READ-STATUS (R201). -/
def runReadStatus (s : State) : Reply × State := (okWith (statusRecord s), s)

/-- READ_STATUS (R201). -/
def execReadStatus (l : Link) (s : State) : Host.Outcome State Fault Refusal :=
  .next (request l (.readStatus l) runReadStatus s)

/-! ### The counters (R202, Section 11.2) -/

/-- The counters of group 0, in the order of the table of Section 11.2, those of Link A before those of Link B. -/
def countersOf (s : State) : List Counter :=
  let i := s.perf.instrument
  let d := s.perf.detector
  [i.accepted, i.fired, i.merged, i.dropped, i.discarded, i.late, i.cut, i.shed, i.earlyRelease,
    i.pedalDropped, s.perf.queue.rollOverrun, s.perf.session.scanStray, s.perf.session.rollRemoved,
    d.pinhole, d.ambiguous, d.badLine,
    s.linkA.frameError, s.linkA.overrun, s.linkA.stray,
    s.linkB.frameError, s.linkB.overrun, s.linkB.stray]

/-- The contents of a group of counters (R202). -/
def groupOf (group : Byte) (s : State) : Option (List Byte) :=
  if group = 0 then some ((countersOf s).flatMap fun c => leBytes 4 c.toNat)
  else if group = 1 then some (s.perf.detector.noise.toList.flatMap fun n => leBytes 2 n)
  else none

/-- The execution of READ-COUNTERS (R202). -/
def runReadCounters (group : Byte) (s : State) : Reply × State :=
  requireValue (groupOf group s) (fun data s => (okWith data, s)) s

/-- READ_COUNTERS (R202). -/
def execReadCounters (l : Link) (group : Byte) (s : State) : Host.Outcome State Fault Refusal :=
  .next (request l (.readCounters l group) (runReadCounters group) s)

/-- The strikes in flight: queued, armed and pending (R118, R202). -/
def inFlight (p : Performance) : Nat := p.queue.strikes + keyStrikes p.instrument

/-- A link's counters cleared. -/
def LinkRecord.clearCounters (r : LinkRecord) : LinkRecord :=
  { r with frameError := 0, overrun := 0, stray := 0 }

/-- Every counter of the performance cleared: ACCEPTED to the strikes in flight, every other to 0 (R202). -/
def clearPerformance (p : Performance) : Performance :=
  { p with
    session := { p.session with scanStray := 0, rollRemoved := 0 }
    detector := { p.detector with
      noise := Vector.replicate 99 0
      pinhole := 0
      ambiguous := 0
      badLine := 0 }
    queue := { p.queue with rollOverrun := 0 }
    instrument := { p.instrument with
      accepted := BitVec.ofNat 32 (inFlight p)
      fired := 0
      merged := 0
      dropped := 0
      discarded := 0
      late := 0
      cut := 0
      shed := 0
      earlyRelease := 0
      pedalDropped := 0 } }

/-- The execution of CLEAR-COUNTERS (R202). -/
def runClearCounters (s : State) : Reply × State :=
  (okReply,
    { s with
      perf := clearPerformance s.perf
      linkA := s.linkA.clearCounters
      linkB := s.linkB.clearCounters })

/-- CLEAR_COUNTERS (R202). -/
def execClearCounters (l : Link) (s : State) : Host.Outcome State Fault Refusal :=
  .next (request l (.clearCounters l) runClearCounters s)

/-! ### READ_KEY (R203, Section 10.7.8) -/

/-- The code of a key state. -/
def KeyState.code : KeyState → Nat
  | .rest => 0
  | .armed => 1
  | .wait => 2
  | .drive => 3
  | .hold => 4
  | .shed => 5
  | .returning => 6

/-- A source set as a character. -/
def Origins.char (o : Origins) : Nat := o.roll.toNat + 2 * o.linkA.toNat + 4 * o.linkB.toNat

/-- A strike block of 10 characters. -/
def strikeBlock : Option Strike → List (Nat × Nat)
  | none => [(1, 0), (4, 0), (1, 0), (1, 0), (1, 0), (1, 0), (1, 0)]
  | some st =>
    [(1, 1), (4, st.fire), (1, st.velocity), (1, st.band), (1, st.duty), (1, st.contributors.char),
      (1, st.accented.toNat)]

/-- The time remaining until a moment, in whole units of 0.1 ms, 0 where absent (log 27). -/
def remaining (now : Nat) : Option Nat → Nat
  | none => 0
  | some t => (t - now) / 100

/-- The time elapsed since a moment, in whole units of 0.1 ms, held at its highest value, 0 where absent. -/
def elapsed (now : Nat) : Option Nat → Nat
  | none => 0
  | some t => min 4294967295 ((now - t) / 100)

/-- The READ-KEY data. -/
def keyData (now : Nat) (r : KeyRecord) : List Byte :=
  layOut ([(1, r.state.code), (1, r.holders.char)] ++ strikeBlock r.armed ++ strikeBlock r.pending
    ++ [(2, remaining now r.driveEnd), (4, elapsed now r.holdStart), (1, remaining now r.returnEnd)])

/-- The execution of READ-KEY (R203). -/
def runReadKey (key : Byte) : State → Reply × State :=
  requireValue (keyOf key) fun k s => (okWith (keyData s.perf.now s.perf.instrument.keys[k]), s)

/-- READ_KEY (R203). -/
def execReadKey (l : Link) (key : Byte) (s : State) : Host.Outcome State Fault Refusal :=
  .next (request l (.readKey l key) (runReadKey key) s)

/-! ### READ_QUEUE (R203, Section 10.7.8) -/

/-- The code of a pedal. -/
def pedalCode : PedalName → Nat
  | .damper => 0
  | .shift => 1

/-- The code of a half. -/
def HalfName.code : HalfName → Nat
  | .bass => 0
  | .treble => 1

/-- The code of a sub-kind. -/
def ExpressionKind.code : ExpressionKind → Nat
  | .slowOn => 0
  | .slowOff => 1
  | .fastOn => 2
  | .fastOff => 3
  | .freezeOn => 4
  | .freezeOff => 5
  | .hookToggle => 6

/-- Kind, sub-kind and target of an entry. -/
def Action.codes : Action → Nat × Nat × Nat
  | .strike k _ _ _ => (0, 0, keyNumber k)
  | .release k => (1, 0, keyNumber k)
  | .pedalDown p => (2, 0, pedalCode p)
  | .pedalUp p => (3, 0, pedalCode p)
  | .expression kind h => (4, kind.code, h.code)
  | .sectionMark => (5, 0, 0)
  | .endMark => (6, 0, 0)

/-- Accented, velocity mode, fixed velocity and hold length of an entry, 0 where absent. -/
def Action.strikeCodes : Action → Nat × Nat × Nat × Nat
  | .strike _ accented .expression hold => (accented.toNat, 0, 0, hold.getD 0)
  | .strike _ accented (.fixed v) hold => (accented.toNat, 1, v, hold.getD 0)
  | _ => (0, 0, 0, 0)

/-- The code of a source of actions. -/
def Origin.code : Origin → Nat
  | .roll => 0
  | .linkA => 1
  | .linkB => 2

/-- An entry in 26 characters. -/
def entryFields (x : Entry) : List (Nat × Nat) :=
  let c := x.action.codes
  let k := x.action.strikeCodes
  [(1, c.1), (1, c.2.1), (1, c.2.2), (1, x.origin.code), (4, x.sounding), (4, x.lead), (4, x.launch),
    (2, x.sequence.toNat), (1, k.1), (1, k.2.1), (1, k.2.2.1), (2, k.2.2.2), (3, x.rollPosition.getD 0)]

/-- The READ-QUEUE data: the number of entries and the first 8. -/
def queueData (q : Queue) : List Byte :=
  leBytes 2 q.entries.length ++ (q.entries.take 8).flatMap fun x => layOut (entryFields x)

/-- The execution of READ-QUEUE (R203). -/
def runReadQueue (s : State) : Reply × State := (okWith (queueData s.perf.queue), s)

/-- READ_QUEUE (R203). -/
def execReadQueue (l : Link) (s : State) : Host.Outcome State Fault Refusal :=
  .next (request l (.readQueue l) runReadQueue s)

end Sys2Proof.Machine
end

