-- ==== Sys2Proof/Machine/Dispatch.lean ====
section
/-! DEFINITION. The dispatch: one arm per command, each one call of the command's meaning. -/

namespace Sys2Proof.Machine

/-- A command's effect on everything but the queue of waiting commands. -/
def exec (i : Instr) (s : State) : Host.Outcome State Fault Refusal :=
  match i with
  | .selectSource l source => Sys2Proof.Machine.execSelectSource l source s
  | .free l => Sys2Proof.Machine.execFree l s
  | .prepare l => Sys2Proof.Machine.execPrepare l s
  | .play l => Sys2Proof.Machine.execPlay l s
  | .pause l => Sys2Proof.Machine.execPause l s
  | .stop l => Sys2Proof.Machine.execStop l s
  | .setTempo l period => Sys2Proof.Machine.execSetTempo l period s
  | .streamLines l count lines => Sys2Proof.Machine.execStreamLines l count lines s
  | .streamClose l => Sys2Proof.Machine.execStreamClose l s
  | .setTrim l trim => Sys2Proof.Machine.execSetTrim l trim s
  | .claim l => Sys2Proof.Machine.execClaim l s
  | .renew l phase => Sys2Proof.Machine.execRenew l phase s
  | .yieldClaim l => Sys2Proof.Machine.execYield l s
  | .askYield l => Sys2Proof.Machine.execAskYield l s
  | .setAdmission l admission => Sys2Proof.Machine.execSetAdmission l admission s
  | .liveStrike l key options velocity offset holdLength => Sys2Proof.Machine.execLiveStrike l key options velocity offset holdLength s
  | .liveRelease l key options offset => Sys2Proof.Machine.execLiveRelease l key options offset s
  | .livePedal l pedal options offset => Sys2Proof.Machine.execLivePedal l pedal options offset s
  | .writeRecord l selector index contents => Sys2Proof.Machine.execWriteRecord l selector index contents s
  | .loadProfile l profile boot => Sys2Proof.Machine.execLoadProfile l profile boot s
  | .commitProfile l profile boot => Sys2Proof.Machine.execCommitProfile l profile boot s
  | .setProtection l profile protection => Sys2Proof.Machine.execSetProtection l profile protection s
  | .readStatus l => Sys2Proof.Machine.execReadStatus l s
  | .readCounters l group => Sys2Proof.Machine.execReadCounters l group s
  | .clearCounters l => Sys2Proof.Machine.execClearCounters l s
  | .readKey l key => Sys2Proof.Machine.execReadKey l key s
  | .readQueue l => Sys2Proof.Machine.execReadQueue l s
  | .standby l => Sys2Proof.Machine.execStandby l s
  | .setNoticeMask l kinds => Sys2Proof.Machine.execSetNoticeMask l kinds s
  | .setLinkRate l rate => Sys2Proof.Machine.execSetLinkRate l rate s
  | .linkReset l => Sys2Proof.Machine.execLinkReset l s
  | .unknownRequest l kind body => Sys2Proof.Machine.execUnknownRequest l kind body s
  | .discardRecord l => Sys2Proof.Machine.execDiscardRecord l s
  | .character l samples => Sys2Proof.Machine.execCharacter l samples s
  | .breakDetected l => Sys2Proof.Machine.execBreak l s
  | .breakRearm l => Sys2Proof.Machine.execBreakRearm l s
  | .idleTruncation l => Sys2Proof.Machine.execIdleTruncation l s
  | .linkDown l => Sys2Proof.Machine.execLinkDown l s
  | .linkUp l => Sys2Proof.Machine.execLinkUp l s
  | .messageSent l => Sys2Proof.Machine.execMessageSent l s
  | .notice l => Sys2Proof.Machine.execNotice l s
  | .linkRateChange l => Sys2Proof.Machine.execLinkRateChange l s
  | .standbyEntry l => Sys2Proof.Machine.execStandbyEntry l s
  | .stabilisationEnd => Sys2Proof.Machine.execStabilisationEnd s
  | .serviceLine asserted => Sys2Proof.Machine.execServiceLine asserted s
  | .rollPresentChange asserted => Sys2Proof.Machine.execRollPresentChange asserted s
  | .monitorLevelChange low critical => Sys2Proof.Machine.execMonitorLevelChange low critical s
  | .powerOn => Sys2Proof.Machine.execPowerOn s
  | .supplyFail => Sys2Proof.Machine.execSupplyFail s
  | .resetLine => Sys2Proof.Machine.execResetLine s
  | .linkResetExecute l => Sys2Proof.Machine.execLinkResetExecute l s
  | .scanImage samples => Sys2Proof.Machine.execScanImage samples s
  | .lineTimerExpiry => Sys2Proof.Machine.execLineTimerExpiry s
  | .threadingIntervalEnd => Sys2Proof.Machine.execThreadingIntervalEnd s
  | .preRollIntervalEnd => Sys2Proof.Machine.execPreRollIntervalEnd s
  | .lineIntervalEnd => Sys2Proof.Machine.execLineIntervalEnd s
  | .reverseStep => Sys2Proof.Machine.execReverseStep s
  | .endingLimit => Sys2Proof.Machine.execEndingLimit s
  | .entryLaunch => Sys2Proof.Machine.execEntryLaunch s
  | .expressionStep => Sys2Proof.Machine.execExpressionStep s
  | .fireRequest key => Sys2Proof.Machine.execFireRequest key s
  | .driveEnd key => Sys2Proof.Machine.execDriveEnd key s
  | .returnExpiry key => Sys2Proof.Machine.execReturnExpiry key s
  | .dropMoment => Sys2Proof.Machine.execDropMoment s
  | .goingDownTravelEnd pedal => Sys2Proof.Machine.execGoingDownTravelEnd pedal s
  | .assistEnd pedal => Sys2Proof.Machine.execAssistEnd pedal s
  | .goingUpTravelEnd pedal => Sys2Proof.Machine.execGoingUpTravelEnd pedal s
  | .leaseEnd => Sys2Proof.Machine.execLeaseEnd s
  | .eraseEnd => Sys2Proof.Machine.execEraseEnd s
  | .commitCompletion => Sys2Proof.Machine.execCommitCompletion s
  | .resetLineDeassertion => Sys2Proof.Machine.execResetLineDeassertion s

end Sys2Proof.Machine
end

