-- ==== Sys2Proof/Machine/Timers.lean ====
section
/-! DEFINITION. The part's own timers and waiting work: each command that the part gives itself, with the real time at which it
falls due (log 5). `step` takes them on an empty queue. -/

namespace Sys2Proof.Machine

/-- A command with its moment, where there is one. -/
def timer (t : Option Nat) (c : Instr) : List (Nat × Instr) :=
  match t with
  | some t => [(t, c)]
  | none => []

/-- A command that is due now, under a condition. -/
def dueNow (s : State) (b : Bool) (c : Instr) : List (Nat × Instr) := if b then [(s.perf.now, c)] else []

/-- The actions whose response has ended (R198, R204, R206). -/
def afterTimers (l : Link) (s : State) : List (Nat × Instr) :=
  (s.link l).due.map fun a =>
    (s.perf.now,
      match a with
      | .rate _ => .linkRateChange l
      | .standby => .standbyEntry l
      | .linkReset => .linkResetExecute l)

/-- The item of the slots that is next to be executed (R194). -/
def slotTimers (l : Link) (s : State) : List (Nat × Instr) :=
  if s.receives l then
    match nextItem (s.link l).slots with
    | some (.request c) => [(s.perf.now, c)]
    | some (.discard _ _) => [(s.perf.now, .discardRecord l)]
    | none => []
  else []

/-- What the link controller of a link has to do. -/
def linkTimers (l : Link) (s : State) : List (Nat × Instr) :=
  afterTimers l s ++ slotTimers l s ++ dueNow s (s.noticeReady l) (.notice l)

/-- The timers of the session controller, the queue and the expression unit. -/
def sessionTimers (s : State) : List (Nat × Instr) :=
  let p := s.perf
  timer p.session.stepTimer .lineTimerExpiry
    ++ timer (p.session.preparingEnd false) .threadingIntervalEnd
    ++ timer (p.session.preparingEnd true) .preRollIntervalEnd
    ++ timer p.session.playingEnd .lineIntervalEnd
    ++ timer p.session.rewindingAt .reverseStep
    ++ timer (endingMoment p) .endingLimit
    ++ timer (launchMoment p) .entryLaunch
    ++ timer (stepMoment s.env p) .expressionStep

/-- The timers of a key. -/
def keyTimers (s : State) (k : Key) : List (Nat × Instr) :=
  timer (fireMoment k s.perf) (.fireRequest k) ++ timer (driveMoment k s.perf.instrument) (.driveEnd k)
    ++ timer s.perf.instrument.keys[k].returnEnd (.returnExpiry k)

/-- The timers of a pedal. -/
def pedalTimers (s : State) (d : PedalName) : List (Nat × Instr) :=
  timer (travelMoment .goingDown d s.perf.instrument) (.goingDownTravelEnd d)
    ++ timer (s.perf.instrument.pedal d).assistEnd (.assistEnd d)
    ++ timer (travelMoment .goingUp d s.perf.instrument) (.goingUpTravelEnd d)

/-- The lease of a holder, a real time that runs in standby too (R171, R174; log 35). -/
def leaseTimer (s : State) : List (Nat × Instr) := timer (s.claim.held.map HeldClaim.leaseEnd) .leaseEnd

/-- The timers of a part that runs. -/
def runningTimers (s : State) : List (Nat × Instr) :=
  sessionTimers s ++ allKeys.flatMap (keyTimers s) ++ timer (dropMoment s.perf.instrument) .dropMoment
    ++ pedalTimers s .damper ++ pedalTimers s .shift
    ++ leaseTimer s
    ++ timer s.store.eraseEnd .eraseEnd ++ timer s.store.completion .commitCompletion

/-- Every timer of the part with its moment. A part held in reset has none. -/
def timers (s : State) : List (Nat × Instr) :=
  match s.power.state with
  | .running => linkTimers .a s ++ linkTimers .b s ++ runningTimers s
  | .standby => afterTimers .a s ++ afterTimers .b s ++ leaseTimer s
  | .waking => afterTimers .a s ++ afterTimers .b s ++ leaseTimer s ++ timer s.power.wakingUntil .stabilisationEnd
  | .held => []

/-- The commands that are due now. -/
def dueCommands (s : State) : List Instr :=
  ((timers s).filter fun t => decide (t.1 ≤ s.perf.now)).map Prod.snd

/-- How long an idle step lets pass: 100 µs, or less to the next timer (log 5). -/
def idleTime (s : State) : Nat :=
  (timers s).foldl (fun acc t => min acc (t.1 - s.perf.now)) 100

end Sys2Proof.Machine
end

