-- ==== Sys2Proof/Machine/Step.lean ====
section
/-! DEFINITION. One step of the part: the command at the front of the queue; on an empty queue a timer that is due, or the passing
of time (log 5). And the placing of a word's command at the front of the queue. -/

namespace Sys2Proof.Machine

/-- The idle part takes one of its own commands. Several that fall due together are taken one at a time, the choice of the first
being a free value (log 5). -/
def takeDue (due : List Instr) (s : State) : Host.Outcome State Fault Refusal :=
  match due with
  | [] => .next { s with perf := advance (idleTime s) s.perf }
  | [c] => exec c s
  | c :: rest =>
    exec ((c :: rest).getD (Config.dueChoice s.freeCount % (c :: rest).length) c)
      { s with freeCount := s.freeCount + 1 }

/-- One step. -/
def step (s : State) : Host.Outcome State Fault Refusal :=
  match s.pending with
  | c :: rest => exec c { s with pending := rest }
  | [] => takeDue (dueCommands s) s

/-- The state with a word's command at the front of its queue; the table gives no row any bits, so no word spells one. -/
def State.withFetchWord (s : State) (nbits w : Nat) : State :=
  match decodeTableWord nbits w with
  | some c => { s with pending := c :: s.pending }
  | none => s

end Sys2Proof.Machine
end

