-- ==== Sys2Proof/Safety.lean ====
section
/-! DEFINITION. The vocabulary of the statements: a request taken for execution, its response, the classes of requests, and the
predicates on states that the invariants speak of. -/

namespace Sys2Proof.Machine

/-! ### Requests and their responses -/

/-- The link that a request comes by; absent for an event. -/
def requestLink : Instr → Option Link
  | .selectSource l _ => some l
  | .free l => some l
  | .prepare l => some l
  | .play l => some l
  | .pause l => some l
  | .stop l => some l
  | .setTempo l _ => some l
  | .streamLines l _ _ => some l
  | .streamClose l => some l
  | .setTrim l _ => some l
  | .claim l => some l
  | .renew l _ => some l
  | .yieldClaim l => some l
  | .askYield l => some l
  | .setAdmission l _ => some l
  | .liveStrike l _ _ _ _ _ => some l
  | .liveRelease l _ _ _ => some l
  | .livePedal l _ _ _ => some l
  | .writeRecord l _ _ _ => some l
  | .loadProfile l _ _ => some l
  | .commitProfile l _ _ => some l
  | .setProtection l _ _ => some l
  | .readStatus l => some l
  | .readCounters l _ => some l
  | .clearCounters l => some l
  | .readKey l _ => some l
  | .readQueue l => some l
  | .standby l => some l
  | .setNoticeMask l _ => some l
  | .setLinkRate l _ => some l
  | .linkReset l => some l
  | .unknownRequest l _ _ => some l
  | _ => none

/-- The link takes the request for execution: it is UP, the part runs, and the request is its oldest held item whose response has
not been made (R194). -/
def Takes (s : State) (l : Link) (c : Instr) : Prop :=
  s.receives l = true ∧ nextItem (s.link l).slots = some (.request c)

/-- The state once the response of a request has been made: nothing but the link's record changes (R194, R195). -/
def respond (l : Link) (c : Instr) (result : Result) (data : List Byte) (after : Option AfterAction) (s : State) :
    State :=
  setLink l (answer (.response (requestKind c) result data) after (s.link l)) s

/-- The requests that always need the claim (Section 9.4). -/
def alwaysGated : Instr → Bool
  | .selectSource _ _ => true
  | .free _ => true
  | .prepare _ => true
  | .play _ => true
  | .pause _ => true
  | .stop _ => true
  | .setTempo _ _ => true
  | .streamLines _ _ _ => true
  | .streamClose _ => true
  | .setTrim _ _ => true
  | .setAdmission _ _ => true
  | _ => false

/-- The requests that need the claim while a holder exists (Section 9.4). -/
def gatedWhileHeld : Instr → Bool
  | .loadProfile _ _ _ => true
  | .commitProfile _ _ _ => true
  | .setProtection _ _ _ => true
  | .standby _ => true
  | .linkReset _ => true
  | _ => false

/-- The session is in one of the six states of a session in progress (R153, R180). -/
def SessionState.inProgress : SessionState → Bool
  | .preparing => true
  | .cued => true
  | .playing => true
  | .starved => true
  | .paused => true
  | .ending => true
  | _ => false

/-- The table of Section 1.2: a session request is taken in the state of the session, whatever its source and its stream. -/
def sessionTakes (c : Instr) (s : Session) : Bool :=
  match c with
  | .selectSource _ _ => (s.state matches .idle)
  | .free _ => (s.state matches .idle)
  | .prepare _ => (s.state matches .idle)
  | .play _ => (s.state matches .cued | .paused)
  | .pause _ => (s.state matches .playing | .starved)
  | .stop _ => !(s.state matches .idle | .rewinding)
  | .setTempo _ _ => !(s.state matches .idle | .rewinding)
  | .streamLines _ _ _ => s.steps
  | .streamClose _ => s.steps
  | _ => true

/-- What the instrument blocks read at the state's moment. -/
def State.moment (s : State) : Moment := s.perf.moment s.env

/-- The performance `p` is `q` but for the time that has passed: real time, PT, its fraction and the moment
of its last arrival. -/
def onlyTime (p q : Performance) : Prop :=
  p = { q with
    now := p.now
    session := { q.session with
      pt := p.session.pt
      ptFraction := p.session.ptFraction
      ptSince := p.session.ptSince } }

/-- The state with its performance changed to `p`, and what follows every change (R14, R22). -/
def settled (s : State) (p : Performance) : State := { s with perf := settle s.env p }

/-! ### Live requests (Section 9.5) -/

/-- The values of a live request are in range (R182, R200). -/
def liveFieldsValid : Instr → Bool
  | .liveStrike _ key options _ _ holdLength =>
      inRange 1 88 key.toNat && decide (options.toNat < 8) && !(options.getLsbD 2 && decide (holdLength = 0))
  | .liveRelease _ key options _ => inRange 1 88 key.toNat && (decide (options = 0) || decide (options = 2))
  | .livePedal _ pedal options _ => decide (pedal.toNat < 2) && decide (options.toNat < 4)
  | _ => false

/-- The queue places a live request needs: one for AT timing, one for a hold length (R182). -/
def livePlaces : Instr → Nat
  | .liveStrike _ _ options _ _ _ => (options.getLsbD 1).toNat + (options.getLsbD 2).toNat
  | .liveRelease _ _ options _ => (options.getLsbD 1).toNat
  | .livePedal _ _ options _ => (options.getLsbD 1).toNat
  | _ => 0

/-- The command is a live request. -/
def isLive : Instr → Bool
  | .liveStrike _ _ _ _ _ _ => true
  | .liveRelease _ _ _ _ => true
  | .livePedal _ _ _ _ => true
  | _ => false

/-- The first five checks of a live request let it through (R182). -/
def LiveTaken (s : State) (l : Link) (c : Instr) : Prop :=
  Takes s l c ∧ s.admits l = true ∧ liveFieldsValid c = true ∧ s.perf.instrument.monitor ≠ .critical
    ∧ (0 < livePlaces c → s.perf.session.state.clockRuns = true)
    ∧ s.perf.queue.entries.length + livePlaces c ≤ 512

/-- The entry of a link made when the queue is `q` (R50, R51, R55). -/
def liveEntry (s : State) (l : Link) (a : Action) (sounding : Nat) (q : Queue) : Entry where
  action := a
  origin := originOf l
  sounding := sounding
  lead := leadOf s.map a
  launch := sounding - leadOf s.map a
  sequence := q.nextSequence
  order := q.insertions
  rollPosition := none

/-! ### Record contents (Section 10.7.6) -/

/-- The record that a write names is in range (R153). -/
def RecordWrite.valid : RecordWrite → Bool
  | .key _ r => r.valid
  | .pedal _ r => r.valid
  | .expression r => r.valid
  | .tracker r => r.valid
  | .supply r => r.valid

/-- The selector of a record. -/
def recordSelector : RecordWrite → Byte
  | .key _ _ => 0
  | .pedal _ _ => 1
  | .expression _ => 2
  | .tracker _ => 3
  | .supply _ => 4

/-- The index of a record: the key number, or the pedal; 0 where there is none. -/
def recordIndex : RecordWrite → Byte
  | .key k _ => BitVec.ofNat 8 (k.val + 1)
  | .pedal .damper _ => 0
  | .pedal .shift _ => 1
  | _ => 0

/-- A number in one character, and in two, least significant first. -/
def char1 (n : Nat) : List Byte := [BitVec.ofNat 8 n]

/-- A number in two characters, least significant first. -/
def char2 (n : Nat) : List Byte := [BitVec.ofNat 8 n, BitVec.ofNat 8 (n / 256)]

/-- The characters of a record's contents. -/
def recordContents : RecordWrite → List Byte
  | .key _ r =>
      char1 r.enabled.toNat ++ char2 r.latency0 ++ char2 r.latency1 ++ char2 r.latency2 ++ char2 r.latency3
        ++ char1 r.shiftOffset ++ char1 r.dutyMinimum ++ char1 r.dutyMaximum ++ char2 r.driveLength
        ++ char1 r.holdDuty ++ char2 r.releaseLead ++ char1 r.returnTime
  | .pedal _ r =>
      char2 r.downLead ++ char2 r.upLead ++ char2 r.downTravel ++ char2 r.upTravel ++ char1 r.driveDuty
        ++ char1 r.holdDuty ++ char1 r.assistDuty ++ char2 r.assistLength
  | .expression r =>
      char1 r.restLevel ++ char1 r.hookLevel ++ char1 r.slowRate ++ char1 r.fastRate ++ char1 r.decayRate
        ++ char1 r.stepPeriod ++ char1 r.accentAdd ++ char1 r.splitKey
  | .tracker r =>
      r.centres.toList.flatMap char2 ++ char2 r.leftEdge ++ char2 r.rightEdge ++ char1 r.soundingDistance
  | .supply r => char1 r.capacity ++ char1 r.lateLimit

/-! ### Characters on a link -/

/-- The samples of a clean character: the start bit low, eight data bits, the mark bit, the stop bit high, each bit time three
samples alike (R188). -/
def cleanCharacter (data : Byte) (mark : Bool) : BitVec 33 :=
  BitVec.ofNat 33 (((characterBits data mark).mapIdx fun i b => if b then 7 * 2 ^ (3 * i) else 0).sum)

/-- The record of a link whose message in reception is discarded for a reason: a discard record with the header kind takes a free
slot and counts FRAME-ERROR, or is lost to OVERRUN; the receiver goes to `next` (R192). -/
def discarded (reason : DiscardReason) (kind : Byte) (next : Receiver) (r : LinkRecord) : LinkRecord :=
  if r.slots.length < 2 then
    { r with
      slots := r.slots ++ [⟨.discard reason kind, false, none⟩]
      frameError := r.frameError + 1
      receiver := next }
  else { r with overrun := r.overrun + 1, overrunFlag := true, receiver := next }

/-- The receiver's record after the characters of a frame, the first of them marked (Section 10.7.2). -/
def takeFrame (l : Link) : List Byte → LinkRecord → LinkRecord
  | [], r => r
  | head :: rest, r =>
      rest.foldl (fun acc b => takeCharacter l (.clean b false) acc) (takeCharacter l (.clean head true) r)

/-! ### The queue at rest -/

/-- No queued entry has a launch time at or before PT. -/
def noneDue (p : Performance) : Prop := ∀ x ∈ p.queue.entries, p.session.pt < x.launch

/-- The session is not ENDING with nothing of the roll left. -/
def notCompleting (p : Performance) : Prop := p.session.state = .ending → rollIsDone p = false

/-- The queue's entries stand in ascending sounding time, equal times in the order of insertion (R49). -/
def inOrder (entries : List Entry) : Prop := entries.Pairwise fun x y => x.before y = true

/-! ### What a statement speaks of in several clauses -/

/-- A line consumed at the resumption from STARVED, with no entry due (R12, R10, R11): PT stands where it stood, the detector and the
events are `out`, the line takes the roll position, its events go to the queue with that PT and position for their reference (R52, R54),
and a session that plays on begins an interval with the next frame index. -/
def resumesWith (s : State) (out : Detector × List HoleEvent) (p : Performance) : Prop :=
  let x := s.perf.session
  let index := if x.newFrame then 0 else x.frameIndex
  p.now = s.perf.now ∧ p.session.pt = x.pt ∧ p.detector = out.1
    ∧ (p.session.state = .playing ∨ p.session.state = .ending →
        ∃ y : Session, y.state = .playing ∧ y.pt = x.pt ∧ y.tempo = x.tempo ∧
          let q := queueEvents s.env ⟨x.pt, x.rollPosition⟩ out.2 { s.perf with session := y, detector := out.1 }
          p.queue = q.queue ∧ p.instrument = q.instrument ∧ p.expression = q.expression)
    ∧ p.session.lastPosition = x.rollPosition ∧ p.session.rollPosition = min 4194303 (x.rollPosition + 1)
    ∧ (p.session.state = .playing → p.session.frameIndex = index ∧ p.session.newFrame = false
        ∧ p.session.intervalEnd
          = some (s.perf.now + (x.tempo / 32 + (if index < x.tempo % 32 then 1 else 0))))
    ∧ (p.session.state = .playing ∨ p.session.state = .ending ∨ p.session.state = .faulted
        ∨ p.session.state = .idle ∨ p.session.state = .rewinding)
    ∧ (x.rollPosition = 4194303 → p.session.state ≠ .playing)

/-- Stream lines consumed in pre-roll one after another, from position 0 onward (R8): the detector takes each, and its events go to the
queue, timed from PT 0 at position D - 1 (R52). -/
def preRolled (s : State) (lines : List TrackLine) : Performance :=
  lines.zipIdx.foldl
    (fun p x =>
      let out := p.detector.streamLine s.map x.2 x.1
      queueEvents s.env ⟨0, s.map.tracker.soundingDistance - 1⟩ out.2 { p with detector := out.1 }) s.perf

/-- The expression unit `x'` after the map has become `new` (R75, R78; log 22): the halves and the trim are kept. With the period as it
was, or PT arrived at its value at this very instant while the clock runs, nothing changes. Else a step that the old period calls for
at PT is still the next one, and without it the next step is the next multiple of the new period that PT reaches. -/
def stepsAnew (s : State) (new : RegulationMap) (x' : Expression) : Prop :=
  let x := s.perf.expression
  let pt := s.perf.session.pt
  let period := new.expression.stepPeriod * 10
  let arrived := s.perf.session.state.clockRuns = true ∧ s.perf.session.ptSince = s.perf.now
  let owed := x.owed = true ∨ (x.lastStep < pt ∧ pt % (s.map.expression.stepPeriod * 10) = 0)
  let next := nextStep new pt x'
  x' = { x with lastStep := x'.lastStep, owed := x'.owed }
    ∧ (new.expression.stepPeriod = s.map.expression.stepPeriod ∨ arrived → x' = x)
    ∧ (new.expression.stepPeriod ≠ s.map.expression.stepPeriod → ¬ arrived →
        (owed → next = pt)
        ∧ (¬ owed → 0 < period → next % period = 0 ∧ pt < next ∧ x.lastStep < next
            ∧ ∀ n, n % period = 0 → pt < n → x.lastStep < n → next ≤ n))

/-- A line read with the step `f` of each track's hole detector (R37, R43, R44): the detectors take their steps, PINHOLE and AMBIGUOUS count
once for each track that gives cause (log 32), and the events of the line follow in ascending track order, a note's HOLE-START accented
where the accent track of its half then marks notes. Nothing else of `d` changes. -/
def readsLine (split : Nat) (f : Track → HoleStep) (d : Detector) (out : Detector × List HoleEvent) : Prop :=
  let tracks := List.finRange 99
  (∀ k : Track, out.1.holes[k] = (f k).hole)
    ∧ out.1 = { d with
      holes := out.1.holes
      pinhole := d.pinhole + BitVec.ofNat 32 (tracks.filter fun k => (f k).pinhole).length
      ambiguous := d.ambiguous + BitVec.ofNat 32 (tracks.filter fun k => (f k).ambiguous).length }
    ∧ out.2 = tracks.filterMap fun k => (f k).event.map fun e => { e with
      accented := decide (e.kind = .holeStart ∧ 5 ≤ e.track.val ∧ e.track.val ≤ 92
        ∧ (f (if e.track.val - 4 ≤ split then 3 else 94)).hole.marks = true) }

/-! ### Layouts (Sections 10.7.7, 10.7.8) -/

/-- Numbers laid out one after another, each in its width in characters, least significant first. -/
def laidOut (fields : List (Nat × Nat)) : List Byte := fields.flatMap fun f => leBytes f.1 f.2

/-- The place of a value in the list of a field's values: its code. -/
def codeIn {α : Type} [DecidableEq α] (values : List α) (x : α) : Nat := values.findIdx fun y => decide (y = x)

/-- The fields of the status record with their widths (Section 10.7.7). -/
def statusLayout (s : State) : List (Nat × Nat) :=
  let x := s.perf.session
  let protections : List Protection := [.open_, .guarded, .lockedUntilPower, .fixed]
  let states : List SessionState :=
    [.idle, .free, .preparing, .cued, .playing, .starved, .paused, .ending, .rewinding, .faulted]
  [(1, codeIn states x.state), (1, codeIn [.sensor, .stream] x.source),
    (1, codeIn [.none, .trackLost, .threadFault, .sensorFault, .rollRemoved] x.faultCause),
    (1, codeIn [.none, .request, .lapse, .supply] x.pauseCause),
    (3, x.lastPosition), (4, x.pt), (3, x.tempo),
    (1, codeIn [none, some Link.a, some Link.b] (s.claim.held.map HeldClaim.link)),
    (2, ((s.claim.held.map HeldClaim.leaseEnd).getD s.perf.now - s.perf.now) / 1000),
    (1, codeIn [.none, .holder, .both] s.claim.admission),
    (2, s.perf.queue.entries.length),
    (1, codeIn [.normal, .low, .critical] s.perf.instrument.monitor),
    (1, effectiveCapacity s.perf.instrument.monitor s.map.supply.capacity),
    (1, s.perf.instrument.unitsInUse),
    (1, codeIn [none, some false, some true] (s.store.commit.map Commit.programming)),
    (1, ((s.store.commit.map Commit.profile).getD 0).val),
    (1, s.store.active.val), (1, s.store.bootChoice.val), (1, s.store.bootFallback.toNat)]
  ++ (s.store.profiles.toList.map fun p => (1, codeIn protections p.protection + (if p.intact then 0 else 128)))
  ++ [(1, codeIn [.powerOn, .supplyFail, .resetLine, .linkReset] s.power.resetCause),
    (1, s.power.fromStandby.toNat), (1, if s.power.state = .running then 0 else 1)]

/-- A source set in one character: bit 0 ROLL, bit 1 LINK-A, bit 2 LINK-B (Section 10.7.8). -/
def sourceSet (o : Origins) : Nat :=
  (if o.roll then 1 else 0) + (if o.linkA then 2 else 0) + (if o.linkB then 4 else 0)

/-- A strike block: presence flag, F, vt, band, duty, contributors, accented; all 0 where absent (Section 10.7.8). -/
def strikeLayout (st : Option Strike) : List (Nat × Nat) :=
  [(1, st.isSome.toNat), (4, (st.map Strike.fire).getD 0), (1, (st.map Strike.velocity).getD 0),
    (1, (st.map Strike.band).getD 0), (1, (st.map Strike.duty).getD 0),
    (1, (st.map fun y => sourceSet y.contributors).getD 0), (1, (st.map fun y => y.accented.toNat).getD 0)]

/-- The READ-KEY data (Section 10.7.8); times remaining and elapsed in units of 0.1 ms, rounded down (log 27). -/
def keyLayout (now : Nat) (r : KeyRecord) : List (Nat × Nat) :=
  [(1, codeIn [.rest, .armed, .wait, .drive, .hold, .shed, .returning] r.state), (1, sourceSet r.holders)]
  ++ strikeLayout r.armed ++ strikeLayout r.pending
  ++ [(2, (r.driveEnd.getD now - now) / 100), (4, min 4294967295 ((now - r.holdStart.getD now) / 100)),
    (1, (r.returnEnd.getD now - now) / 100)]

/-- Kind, sub-kind and target of an entry (Section 10.7.8). -/
def actionLayout : Action → List (Nat × Nat)
  | .strike k _ _ _ => [(1, 0), (1, 0), (1, k.val + 1)]
  | .release k => [(1, 1), (1, 0), (1, k.val + 1)]
  | .pedalDown d => [(1, 2), (1, 0), (1, codeIn [.damper, .shift] d)]
  | .pedalUp d => [(1, 3), (1, 0), (1, codeIn [.damper, .shift] d)]
  | .expression kind h =>
      [(1, 4), (1, codeIn [.slowOn, .slowOff, .fastOn, .fastOff, .freezeOn, .freezeOff, .hookToggle] kind),
        (1, codeIn [.bass, .treble] h)]
  | .sectionMark => [(1, 5), (1, 0), (1, 0)]
  | .endMark => [(1, 6), (1, 0), (1, 0)]

/-- Accented, velocity mode, fixed velocity and hold length of an entry, 0 where absent (Section 10.7.8). -/
def strikePart : Action → List (Nat × Nat)
  | .strike _ accented .expression hold => [(1, accented.toNat), (1, 0), (1, 0), (2, hold.getD 0)]
  | .strike _ accented (.fixed v) hold => [(1, accented.toNat), (1, 1), (1, v), (2, hold.getD 0)]
  | _ => [(1, 0), (1, 0), (1, 0), (2, 0)]

/-- A queue entry in 26 characters (Section 10.7.8). -/
def entryLayout (x : Entry) : List (Nat × Nat) :=
  actionLayout x.action
  ++ [(1, codeIn [.roll, .linkA, .linkB] x.origin), (4, x.sounding), (4, x.lead), (4, x.launch),
    (2, x.sequence.toNat)]
  ++ strikePart x.action ++ [(3, x.rollPosition.getD 0)]

/-! ### Predicates of the invariants -/

/-- A session that is over has left nothing behind: no entry, no line, no step (R13, R20, R58). -/
def idleIsClear (s : State) : Prop :=
  s.perf.session.state = .idle ∨ s.perf.session.state = .rewinding →
    s.perf.queue.entries = [] ∧ s.perf.session.sensorBuffer = [] ∧ s.perf.session.streamBuffer = []
      ∧ s.perf.session.stepTimer = none ∧ s.perf.session.streamOpen = false

/-- The buffers keep within their room: 2 sensor lines, with room for the image of a step that is outstanding, 128 stream lines, 512
entries, 2 slots on each link (R13, R14, R49, R187). -/
def buffersFit (s : State) : Prop :=
  s.perf.session.sensorBuffer.length ≤ 2
    ∧ (s.perf.session.stepTimer.isSome = true → s.perf.session.sensorBuffer.length < 2)
    ∧ s.perf.session.streamBuffer.length ≤ streamCapacity
    ∧ s.perf.queue.entries.length ≤ queueCapacity
    ∧ s.linkA.slots.length ≤ 2 ∧ s.linkB.slots.length ≤ 2

/-- The queue is in order, and every entry was inserted before the next will be (R49, R51). -/
def queueInOrder (s : State) : Prop :=
  inOrder s.perf.queue.entries ∧ ∀ x ∈ s.perf.queue.entries, x.order < s.perf.queue.insertions

/-- The working map and every INTACT profile are in range; profile 0 is FIXED and INTACT, and no commit is made to it (R152, R159,
R160). -/
def mapsInRange (s : State) : Prop :=
  s.map.valid = true
    ∧ (∀ n : Fin 4, s.store.profiles[n].intact = true → s.store.profiles[n].contents.valid = true)
    ∧ s.store.profiles[(0 : Fin 4)].intact = true ∧ s.store.profiles[(0 : Fin 4)].protection = .fixed
    ∧ ∀ c, s.store.commit = some c → c.snapshot.valid = true ∧ c.profile ≠ 0

/-- The link that holds the claim is UP (R171). -/
def holderIsUp (s : State) : Prop := ∀ h, s.claim.held = some h → (s.link h.link).up = true

/-! ### The instrument's books -/

/-- The charges of all keys and pedals (R137). -/
def chargesOf (i : Instrument) : Nat :=
  (i.keys.toList.map KeyRecord.charge).sum + i.damper.charge + i.shift.charge

/-- The records of the instrument agree with each other and with the wait list: a key stands once in the list exactly in WAIT, and
has an armed strike exactly in ARMED and WAIT; a pending strike stands at a key that will arm it; a pedal stands once in the list
exactly while it waits, held by someone; an assist runs in GOING-UP alone; and the units in use are the charges (R85, R95, R119,
R136, R137, R139). -/
def instrumentCoherent (i : Instrument) : Prop :=
  (i.waitList.map WaitEntry.requester).Nodup
    ∧ (∀ k : Key, Requester.key k ∈ i.waitList.map WaitEntry.requester ↔ i.keys[k].state = .wait)
    ∧ (∀ k : Key, i.keys[k].armed.isSome = true ↔ i.keys[k].state = .armed ∨ i.keys[k].state = .wait)
    ∧ (∀ k : Key, i.keys[k].pending.isSome = true →
        i.keys[k].state ≠ .rest ∧ i.keys[k].state ≠ .hold
          ∧ (i.keys[k].state = .shed → i.keys[k].returnEnd.isSome = true))
    ∧ (∀ d : PedalName, Requester.pedal d ∈ i.waitList.map WaitEntry.requester
        ↔ (i.pedal d).requestMoment.isSome = true)
    ∧ (∀ d : PedalName, (i.pedal d).requestMoment.isSome = true → (i.pedal d).holders.isEmpty = false)
    ∧ (∀ d : PedalName, (i.pedal d).assistEnd.isSome = true → (i.pedal d).state = .goingUp)
    ∧ i.unitsInUse = chargesOf i

/-- Every accepted strike is accounted for: fired, merged, dropped, discarded or in flight, modulo 2^32 (R118). -/
def strikesConserved (p : Performance) : Prop :=
  p.instrument.accepted
    = p.instrument.fired + p.instrument.merged + p.instrument.dropped + p.instrument.discarded
      + BitVec.ofNat 32 (inFlight p)

end Sys2Proof.Machine
end

