-- ==== Sys2Proof/Certificates/Slice0/Obligations.lean ====
section
/-! DEFINITION. The statements about the model. Each `Obligations.<Name>` is a proposition; OBLIGATIONS.json says which rules of
spec/ it comes from. -/

open Sys2Proof Sys2Proof.Machine

/-! ### Steps and requests -/

/-- A step takes the command at the front of the queue and runs it on the state with the queue's rest. On an empty queue (log 5, the
model's choice) a command of the part itself that is due, its moment not after real time, is taken: the only one, or of several the one
that a free value picks; with none due time passes, and nothing else changes: real time moves on by at most 100 µs and never past the
next timer. -/
def Obligations.StepTakesFrontOrIdles : Prop :=
  (∀ (c : Instr) (rest : List Instr) (s : State),
    step { s with pending := c :: rest } = exec c { s with pending := rest })
    ∧ (∀ s : State, s.pending = [] → dueCommands s = [] →
    step s = .next { s with perf := advance (idleTime s) s.perf }
      ∧ (advance (idleTime s) s.perf).now = s.perf.now + idleTime s
      ∧ 1 ≤ idleTime s ∧ idleTime s ≤ 100 ∧ ∀ t ∈ timers s, s.perf.now + idleTime s ≤ t.1)
    ∧ (∀ (c : Instr) (s : State), s.pending = [] → dueCommands s = [c] → step s = exec c s)
    ∧ (∀ s : State, s.pending = [] → 2 ≤ (dueCommands s).length →
        ∃ c, (dueCommands s)[Config.dueChoice s.freeCount % (dueCommands s).length]? = some c
          ∧ step s = exec c { s with freeCount := s.freeCount + 1 })
    ∧ ∀ (c : Instr) (s : State), c ∈ dueCommands s ↔ ∃ t, (t, c) ∈ timers s ∧ t ≤ s.perf.now

/-- Performance time (R2): while the clock runs, PT with its fraction grows by the real time that passes, and holds at its highest
value; while the clock stands both keep their values. Nothing else of the performance changes but real time and the moment of PT's last
arrival at a value, a field of the model's own (log 22): it changes only as PT advances. -/
def Obligations.PerformanceTime : Prop :=
  ∀ (dt : Nat) (p : Performance), p.session.ptFraction < 100 → p.session.pt ≤ ptMax →
    ∃ pt fraction since, advance dt p
        = { p with
            now := p.now + dt
            session := { p.session with pt := pt, ptFraction := fraction, ptSince := since } }
      ∧ fraction < 100
      ∧ (p.session.state.clockRuns = false → pt = p.session.pt ∧ fraction = p.session.ptFraction)
      ∧ (p.session.state.clockRuns = true → p.session.pt * 100 + p.session.ptFraction + dt < (ptMax + 1) * 100 →
          pt * 100 + fraction = p.session.pt * 100 + p.session.ptFraction + dt
            ∧ (p.session.pt < pt → since + fraction = p.now + dt))
      ∧ (p.session.state.clockRuns = true → (ptMax + 1) * 100 ≤ p.session.pt * 100 + p.session.ptFraction + dt →
          pt = ptMax)
      ∧ (pt = p.session.pt → since = p.session.ptSince)

/-- What becomes of a request that is not the next held item (R193, R194; log 7): on a link that does not receive nothing; with both
slots taken it is lost to OVERRUN; with a free slot, a body of no allowed length takes it as a BAD-LENGTH discard record that
counts FRAME-ERROR; else the request takes it, and is executed at once exactly when no earlier item waits for its response. -/
def Obligations.RequestArrival : Prop :=
  ∀ (c : Instr) (l : Link) (s : State), requestLink c = some l →
    nextItem (s.link l).slots ≠ some (.request c) →
    (s.receives l = false → exec c s = .next s)
    ∧ (s.receives l = true →
        (2 ≤ (s.link l).slots.length →
          exec c s = .next (setLink l
            { s.link l with overrun := (s.link l).overrun + 1, overrunFlag := true } s))
        ∧ ((s.link l).slots.length < 2 →
            (c.wellFormed = false →
              exec c s = .next (setLink l
                { s.link l with
                  slots := (s.link l).slots ++ [⟨.discard .badLength (requestKind c), false, none⟩]
                  frameError := (s.link l).frameError + 1 } s))
            ∧ (c.wellFormed = true →
                let held := setLink l
                  { s.link l with slots := (s.link l).slots ++ [⟨.request c, false, none⟩] } s
                ((nextItem (s.link l).slots).isSome = true → exec c s = .next held)
                ∧ (nextItem (s.link l).slots = none → exec c s = exec c held))))

/-- The making of a response (R194, R195): the slot of the item is marked answered, with the action after it; the message begins at
once, with the overrun indication, when nothing waits or is in transmission, and else joins the back of the transmit queue. That no
message begins while an action that follows a response is still to be carried out is log 25, the model's choice. -/
def Obligations.ResponseJoinsQueue : Prop :=
  ∀ (m : Message) (after : Option AfterAction) (r : LinkRecord),
    (r.sending = none → r.due = [] → r.transmitQueue = [] →
      answer m after r = { r with
        slots := markAnswered after r.slots
        sending := some (.message m r.overrunFlag)
        overrunFlag := false })
    ∧ (r.sending ≠ none ∨ r.due ≠ [] →
        answer m after r = { r with
          slots := markAnswered after r.slots
          transmitQueue := r.transmitQueue ++ [m] })
    ∧ (∀ first rest, r.sending = none → r.due = [] → r.transmitQueue = first :: rest →
        answer m after r = { r with
          slots := markAnswered after r.slots
          transmitQueue := rest ++ [m]
          sending := some (.message first r.overrunFlag)
          overrunFlag := false })

/-! ### Refusals -/

/-- The claim check (R180): an always-gated request from a link that does not hold the claim, a request gated while a holder exists
when the other link holds it, and a WRITE-RECORD in a session in progress when the other link holds it, are refused NOT-HOLDER
and change nothing. The table of Section 1.2: a session request from the holder is refused BAD-STATE, with no change, in every state
where the table has a dash. -/
def Obligations.GatesRefuse : Prop :=
  (∀ (c : Instr) (l : Link) (s : State), requestLink c = some l → Takes s l c →
    (alwaysGated c = true → s.holds l = false →
      exec c s = .next (respond l c .notHolder [] none s))
    ∧ (gatedWhileHeld c = true → s.otherHolds l = true →
        exec c s = .next (respond l c .notHolder [] none s))
    ∧ (∀ selector index contents, c = .writeRecord l selector index contents →
        s.perf.session.state.inProgress = true → s.otherHolds l = true →
        exec c s = .next (respond l c .notHolder [] none s)))
    ∧ (∀ (c : Instr) (l : Link) (s : State), requestLink c = some l → Takes s l c → alwaysGated c = true →
    s.holds l = true → sessionTakes c s.perf.session = false →
    exec c s = .next (respond l c .badState [] none s))

/-- The refusals of a session request that its state lets through: PREPARE of a SENSOR roll that is absent (R5), PLAY at supply
CRITICAL (R9), a stream request of a SENSOR session or a CLOSED stream (R16, R17), and values out of range (R3, R16, R18, R79,
R178). Each changes nothing. -/
def Obligations.SessionValueRefusals : Prop :=
  ∀ (l : Link) (s : State), s.holds l = true →
    (Takes s l (.prepare l) → s.perf.session.state = .idle → s.perf.session.source = .sensor →
      s.pins.rollPresent = false →
      exec (.prepare l) s = .next (respond l (.prepare l) .badState [] none s))
    ∧ (Takes s l (.play l) → sessionTakes (.play l) s.perf.session = true →
        s.perf.instrument.monitor = .critical →
        exec (.play l) s = .next (respond l (.play l) .supplyCritical [] none s))
    ∧ (∀ count lines, Takes s l (.streamLines l count lines) →
        s.perf.session.source = .sensor ∨ s.perf.session.streamOpen = false →
        exec (.streamLines l count lines) s
          = .next (respond l (.streamLines l count lines) .badState [] none s))
    ∧ (∀ count lines, Takes s l (.streamLines l count lines) → s.perf.session.takesStream = true →
        count = 0 ∨ 16 < count.toNat →
        exec (.streamLines l count lines) s
          = .next (respond l (.streamLines l count lines) .outOfRange [] none s))
    ∧ (Takes s l (.streamClose l) → s.perf.session.source = .sensor ∨ s.perf.session.streamOpen = false →
        exec (.streamClose l) s = .next (respond l (.streamClose l) .badState [] none s))
    ∧ (∀ code, Takes s l (.selectSource l code) → s.perf.session.state = .idle → 2 ≤ code.toNat →
        exec (.selectSource l code) s = .next (respond l (.selectSource l code) .outOfRange [] none s))
    ∧ (∀ period, Takes s l (.setTempo l period) → sessionTakes (.setTempo l period) s.perf.session = true →
        period.toNat < 32000 ∨ 200000 < period.toNat →
        exec (.setTempo l period) s = .next (respond l (.setTempo l period) .outOfRange [] none s))
    ∧ (∀ trim, Takes s l (.setTrim l trim) → 8 ≤ trim.toNat →
        exec (.setTrim l trim) s = .next (respond l (.setTrim l trim) .outOfRange [] none s))
    ∧ (∀ code, Takes s l (.setAdmission l code) → 3 ≤ code.toNat →
        exec (.setAdmission l code) s = .next (respond l (.setAdmission l code) .outOfRange [] none s))

/-! ### Requests that set one register -/

/-- SELECT-SOURCE in IDLE, SET-TRIM, SET-ADMISSION and SET-NOTICE-MASK with values in range set their one register, answer OK, and
change nothing else (R3, R79, R178, R197). -/
def Obligations.RegisterRequests : Prop :=
  ∀ (l : Link) (s : State),
    (∀ code source, Takes s l (.selectSource l code) → s.holds l = true → s.perf.session.state = .idle →
      (code = 0 ∧ source = .sensor) ∨ (code = 1 ∧ source = .stream) →
      exec (.selectSource l code) s = .next (respond l (.selectSource l code) .ok [] none
        { s with perf := { s.perf with session := { s.perf.session with source := source } } }))
    ∧ (∀ trim, Takes s l (.setTrim l trim) → s.holds l = true → trim.toNat ≤ 7 →
        exec (.setTrim l trim) s = .next (respond l (.setTrim l trim) .ok [] none
          { s with perf := { s.perf with expression := { s.perf.expression with trim := trim.toNat } } }))
    ∧ (∀ code admission, Takes s l (.setAdmission l code) → s.holds l = true →
        (code = 0 ∧ admission = .none) ∨ (code = 1 ∧ admission = .holder) ∨ (code = 2 ∧ admission = .both) →
        exec (.setAdmission l code) s = .next (respond l (.setAdmission l code) .ok [] none
          { s with claim := { s.claim with admission := admission } }))
    ∧ (∀ kinds, Takes s l (.setNoticeMask l kinds) →
        (kinds.toNat < 4096 →
          exec (.setNoticeMask l kinds) s = .next (respond l (.setNoticeMask l kinds) .ok [] none
            (setLink l { s.link l with mask := kinds.setWidth 12 } s)))
        ∧ (4096 ≤ kinds.toNat →
            exec (.setNoticeMask l kinds) s
              = .next (respond l (.setNoticeMask l kinds) .outOfRange [] none s)))

/-! ### The claim -/

/-- CLAIM (R172): granted for 1500 ms with expected phase 1 when no link holds the claim; ALREADY-HOLDER from the holder and
HELD-BY-OTHER from the other link, with no change. -/
def Obligations.ClaimOutcomes : Prop :=
  ∀ (l : Link) (s : State), Takes s l (.claim l) →
    (s.claim.held = none →
      exec (.claim l) s = .next (respond l (.claim l) .ok [] none
        { s with claim := { s.claim with held := some ⟨l, s.perf.now + 1500000, false⟩ } }))
    ∧ (∀ h, s.claim.held = some h → h.link = l →
        exec (.claim l) s = .next (respond l (.claim l) .alreadyHolder [] none s))
    ∧ (∀ h, s.claim.held = some h → h.link ≠ l →
        exec (.claim l) s = .next (respond l (.claim l) .heldByOther [] none s))

/-- RENEW (R173): the holder, the phase and the expected phase are checked in that order; a RENEW that passes sets the lease end to
now + 1500 ms and turns the expected phase over. -/
def Obligations.RenewOutcomes : Prop :=
  ∀ (l : Link) (phase : Byte) (s : State), Takes s l (.renew l phase) →
    (s.holds l = false →
      exec (.renew l phase) s = .next (respond l (.renew l phase) .notHolder [] none s))
    ∧ (∀ h, s.claim.held = some h → h.link = l →
        (phase ≠ 1 ∧ phase ≠ 2 →
          exec (.renew l phase) s = .next (respond l (.renew l phase) .outOfRange [] none s))
        ∧ ((phase = 1 ∧ h.secondPhase = true) ∨ (phase = 2 ∧ h.secondPhase = false) →
            exec (.renew l phase) s = .next (respond l (.renew l phase) .wrongPhase [] none s))
        ∧ ((phase = 1 ∧ h.secondPhase = false) ∨ (phase = 2 ∧ h.secondPhase = true) →
            exec (.renew l phase) s = .next (respond l (.renew l phase) .ok [] none
              { s with claim := { s.claim with
                held := some ⟨l, s.perf.now + 1500000, !h.secondPhase⟩ } })))

/-- YIELD and ASK-YIELD (R176, R177). YIELD from the holder: the holder becomes NONE, and the lease end and expected phase become absent;
from another link it is refused. The acceptance of STANDBY sets the holder to NONE in the same way. ASK-YIELD: notice YIELD-ASKED is made
pending on the holder's link; from the holder, and while the holder is NONE, it is refused. Nothing else changes. -/
def Obligations.YieldOutcomes : Prop :=
  ∀ (l : Link) (s : State),
    (Takes s l (.yieldClaim l) →
      (s.holds l = true →
        exec (.yieldClaim l) s = .next (respond l (.yieldClaim l) .ok [] none
          { s with claim := { s.claim with held := none } }))
      ∧ (s.holds l = false →
          exec (.yieldClaim l) s = .next (respond l (.yieldClaim l) .notHolder [] none s)))
    ∧ (Takes s l (.standby l) → s.otherHolds l = false → s.quiet = true → s.store.commit = none →
        exec (.standby l) s = .next (respond l (.standby l) .ok [] (some .standby)
          { s with claim := { s.claim with held := none } }))
    ∧ (Takes s l (.askYield l) →
        (s.otherHolds l = true →
          exec (.askYield l) s = .next (respond l (.askYield l) .ok [] none
            { s with perf := { s.perf with instrument := raiseOn l.other .yieldAsked s.perf.instrument } }))
        ∧ (s.holds l = true →
            exec (.askYield l) s = .next (respond l (.askYield l) .alreadyHolder [] none s))
        ∧ (s.claim.held = none →
            exec (.askYield l) s = .next (respond l (.askYield l) .badState [] none s)))

/-- The lapse of the claim at its lease end (R174, R25), on a part that runs, and in standby and stabilisation too (log 35, the model's
choice): the holder becomes NONE, the admission is kept, CLAIM-LAPSED is pending on both links, a session in PLAYING, STARVED or ENDING
enters PAUSED with cause LAPSE, a FREE session goes to IDLE with its queue discarded, and a session in any other state keeps its state. -/
def Obligations.LeaseEndLapses : Prop :=
  ∀ (h : HeldClaim) (s : State), s.power.state ≠ .held → s.claim.held = some h → s.perf.now ≤ h.leaseEnd →
    ∃ p, exec .leaseEnd s = .next { s with perf := p, claim := { s.claim with held := none } }
      ∧ p.now = h.leaseEnd
      ∧ p.instrument.noticesA &&& noticeBit .claimLapsed = noticeBit .claimLapsed
      ∧ p.instrument.noticesB &&& noticeBit .claimLapsed = noticeBit .claimLapsed
      ∧ (s.perf.session.state.inPlay = true →
          p.session.state = .paused ∧ p.session.pauseCause = .lapse ∧ p.queue = s.perf.queue
            ∧ p.session.resumeTarget
              = some (if s.perf.session.state = .ending then .ending else .playing))
      ∧ (s.perf.session.state = .free → p.session.state = .idle ∧ p.queue.entries = [])
      ∧ (s.perf.session.state.inPlay = false → s.perf.session.state ≠ .free →
          p.session = forwardStep h.leaseEnd s.perf.session ∧ p.queue = s.perf.queue)
      ∧ p.detector = s.perf.detector ∧ p.expression = s.perf.expression

/-! ### Session requests that are taken -/

/-- FREE in IDLE, with the queue empty as every IDLE session leaves it: the session enters FREE at PT 0 with the causes cleared and
both halves at the rest level; the answer is OK, and nothing else changes (R4, R72). The fraction of PT begins at 0 (log 14), and what
decides the next step begins afresh (log 22): both are the model's choice. -/
def Obligations.FreeStarts : Prop :=
  ∀ (l : Link) (s : State), Takes s l (.free l) → s.holds l = true → s.perf.session.state = .idle →
    s.perf.queue.entries = [] →
    let rest : Half := ⟨s.map.expression.restLevel, false, false, false, false⟩
    exec (.free l) s = .next (respond l (.free l) .ok [] none
      { s with perf := { s.perf with
          session := { s.perf.session with
            state := .free
            pt := 0
            ptFraction := 0
            pauseCause := .none
            faultCause := .none }
          expression := { s.perf.expression with bass := rest, treble := rest, lastStep := 0, owed := false } } })

/-- PREPARE in IDLE, with the buffers empty and no step outstanding as every IDLE session leaves them: the session enters PREPARING
at PT 0 and position 0, with the detector cleared and both halves at the rest level. With SENSOR and the roll present threading
begins and the first forward step is issued; with STREAM the stream is OPEN (R5, R6, R14, R15, R28, R46, R72). The fraction of PT begins
at 0 (log 14), and what decides the next step begins afresh (log 22): both are the model's choice. -/
def Obligations.PrepareStarts : Prop :=
  ∀ (l : Link) (s : State), Takes s l (.prepare l) → s.holds l = true → s.perf.session.state = .idle →
    s.perf.session.sensorBuffer = [] → s.perf.session.stepTimer = none →
    let rest : Half := ⟨s.map.expression.restLevel, false, false, false, false⟩
    let started : Session := { s.perf.session with
      state := .preparing
      pt := 0
      ptFraction := 0
      rollPosition := 0
      lastPosition := 0
      rewindCount := 0
      pauseCause := .none
      faultCause := .none
      frameIndex := 0
      newFrame := false
      awaitingImage := false
      threadingLines := 0
      threadingStable := false
      streamBuffer := [] }
    let prepared (session : Session) : State := { s with perf := { s.perf with
      session := session
      detector := { s.perf.detector with
        appliedOffset := 0
        badRun := 0
        goodRun := 0
        holes := Vector.replicate 99 .closed }
      expression := { s.perf.expression with bass := rest, treble := rest, lastStep := 0, owed := false } } }
    (s.perf.session.source = .sensor → s.pins.rollPresent = true →
      exec (.prepare l) s = .next (respond l (.prepare l) .ok [] none
        (prepared { started with
          streamOpen := false
          intervalEnd := some (s.perf.now + 2500)
          direction := .forward
          stepPulses := s.perf.session.stepPulses + 1
          stepTimer := some (s.perf.now + 20000)
          rewindCount := 1 })))
    ∧ (s.perf.session.source = .stream →
        exec (.prepare l) s = .next (respond l (.prepare l) .ok [] none
          (prepared { started with streamOpen := true, intervalEnd := none })))

/-- PLAY from CUED or PAUSED with the supply not CRITICAL and no entry due: to PLAYING with a new frame whose first interval lasts
the base part of the tempo period, plus one where its fine part is not 0, or back to ENDING with its ending start kept; the pause
cause is cleared and the answer is OK (R9, R10, R19). The step of R14 is issued where it calls for one. -/
def Obligations.PlayResumes : Prop :=
  ∀ (l : Link) (s : State), Takes s l (.play l) → s.holds l = true →
    s.perf.session.state = .cued ∨ s.perf.session.state = .paused →
    s.perf.instrument.monitor ≠ .critical → noneDue s.perf →
    (s.perf.session.resumeTarget ≠ some .ending →
      exec (.play l) s = .next (respond l (.play l) .ok [] none
        { s with perf := { s.perf with session := forwardStep s.perf.now { s.perf.session with
            state := .playing
            resumeTarget := none
            pauseCause := .none
            frameIndex := 0
            newFrame := false
            intervalEnd := some (s.perf.now + (s.perf.session.tempo / 32
              + (if 0 < s.perf.session.tempo % 32 then 1 else 0))) } } }))
    ∧ (s.perf.session.resumeTarget = some .ending → rollIsDone s.perf = false →
        exec (.play l) s = .next (respond l (.play l) .ok [] none
          { s with perf := { s.perf with session := { s.perf.session with
              state := .ending
              resumeTarget := none
              pauseCause := .none } } }))

/-- Wherever the clock starts or a tempo changes while it runs, every entry that is due launches at once (R59, R65): after FREE, PLAY
and SET-TEMPO that are answered OK, either the clock stands or no queued entry is due. -/
def Obligations.StartLaunchesDue : Prop :=
  ∀ (c : Instr) (l : Link) (s : State), Takes s l c → s.holds l = true →
    (c = .free l ∧ s.perf.session.state = .idle)
      ∨ (c = .play l ∧ (s.perf.session.state = .cued ∨ s.perf.session.state = .paused)
          ∧ s.perf.instrument.monitor ≠ .critical)
      ∨ (∃ period, c = .setTempo l period ∧ s.perf.session.state ≠ .idle ∧ s.perf.session.state ≠ .rewinding
          ∧ 32000 ≤ period.toNat ∧ period.toNat ≤ 200000) →
    ∃ p, exec c s = .next (respond l c .ok [] none { s with perf := p })
      ∧ (p.session.state.clockRuns = false ∨ noneDue p)

/-- PAUSE in PLAYING or STARVED: PAUSED with cause REQUEST and resume target PLAYING, the interval in progress abandoned, the pause
effects applied at keys and pedals, the queue and the halves kept (R19, R110). The pause effects (R110, R133): afterwards ROLL is in no
holder set and no contributor set, of a key or of a pedal, and the counters that count no loss of a strike to the pause are kept. They act
at each key from the lowest up, then at the damper, then at the shift pedal, and one grant pass follows (log 9, the model's choice). At a
key ROLL leaves the holders and the contributors, and the links stay; a strike without contributors is discarded and counts DISCARDED; a
key in ARMED or WAIT whose armed strike is discarded withdraws and rests without holders, or arms its pending strike, which asks where
its time has come (R98, R105); a key in HOLD left without holders returns with 1 unit returned, and one in SHED returns or rests (R102);
any other keeps its state. A pedal left without holders withdraws its request, or goes up from DOWN or GOING-DOWN with its assist, as on
an up (R127, R129, R133). -/
def Obligations.PausePauses : Prop :=
  (∀ (l : Link) (s : State), Takes s l (.pause l) → s.holds l = true →
    s.perf.session.state = .playing ∨ s.perf.session.state = .starved →
    exec (.pause l) s = .next (respond l (.pause l) .ok [] none
      { s with perf := { s.perf with
          session := forwardStep s.perf.now { s.perf.session with
            state := .paused
            intervalEnd := none
            awaitingImage := false
            pauseCause := .request
            resumeTarget := some .playing }
          instrument := pauseInstrument s.moment s.perf.instrument } }))
    ∧ (∀ (m : Moment) (i : Instrument),
    (∀ k : Key, ((pauseInstrument m i).keys[k]).hasRoll = false)
      ∧ (∀ d : PedalName, ((pauseInstrument m i).pedal d).holders.roll = false)
      ∧ (pauseInstrument m i).accepted = i.accepted ∧ (pauseInstrument m i).merged = i.merged
      ∧ (pauseInstrument m i).dropped = i.dropped ∧ (pauseInstrument m i).pedalDropped = i.pedalDropped
      ∧ (pauseInstrument m i).earlyRelease = i.earlyRelease ∧ (pauseInstrument m i).monitor = i.monitor
      ∧ pauseInstrument m i = pass m (leavePedalOnly m .shift .roll (leavePedalOnly m .damper .roll
          (allKeys.foldl (fun j k => pauseKeyOnly m k j) i))))
    ∧ (∀ (m : Moment) (k : Key) (i : Instrument),
    let r := i.keys[k]
    let rest (st : Option Strike) : Option Strike := match st with
      | none => none
      | some x => if x.contributors.linkA || x.contributors.linkB
          then some { x with contributors := { x.contributors with roll := false } } else none
    let lost (st : Option Strike) : Bool := st.isSome && (rest st).isNone
    let left : KeyRecord := { r with
      armed := rest r.armed
      pending := rest r.pending
      holders := { r.holders with roll := false } }
    let counted : Instrument := { i with discarded := i.discarded
      + ((if lost r.armed then 1 else 0) + (if lost r.pending then 1 else 0)) }
    let becomes (j : Instrument) (r' : KeyRecord) : Prop := pauseKeyOnly m k i = { j with keys := i.keys.set k r' }
    let loses := lost r.armed = true ∧ (r.state = .armed ∨ r.state = .wait)
    let emptied := r.holders.roll = true ∧ left.holders.isEmpty = true
    let withdrawn : Instrument := { counted with
      waitList := i.waitList.filter fun e => decide (e.requester ≠ .key k) }
    (¬ loses → ¬ (emptied ∧ (r.state = .hold ∨ r.state = .shed)) → becomes counted left)
      ∧ (emptied → r.state = .hold → becomes { counted with unitsInUse := i.unitsInUse - 1 } { left with
          state := .returning
          holdStart := none
          returnEnd := some (m.now + m.map.keys[k].returnTime * 100)
          channel := r.channel.switch m.now .off })
      ∧ (emptied → r.state = .shed →
          becomes counted { left with state := if r.returnEnd.isSome then .returning else .rest, holdStart := none })
      ∧ (loses → left.pending = none → becomes withdrawn { left with
          requestMoment := none, state := .rest, holders := ⟨false, false, false⟩ })
      ∧ (∀ st, loses → left.pending = some st →
          let armed : KeyRecord := { left with
            state := .armed
            requestMoment := none
            armed := some { st with fire := max st.fire m.pt }
            pending := none
            holdStart := none }
          (m.pt < st.fire → becomes withdrawn armed)
          ∧ (st.fire ≤ m.pt → becomes
              { withdrawn with
                waitList := insertWait ⟨.key k, m.now, m.now + m.map.supply.lateLimit * 1000⟩ withdrawn.waitList }
              { armed with state := .wait, requestMoment := some m.now })))
    ∧ (∀ (m : Moment) (d : PedalName) (o : Origin) (i : Instrument),
    let r := i.pedal d
    let left : PedalRecord := { r with holders := r.holders.erase o }
    let place := r.position m.now
    let travel := place * (m.map.pedal d).upTravel / 1000
    let assist := 0 < (m.map.pedal d).assistLength ∧ 0 < travel
    let leaves (held : Nat) : Prop :=
      let gone := setPedal d
        { left with
          state := if travel = 0 then .up else .goingUp
          travel := if travel = 0 then none else some ⟨m.now, place, m.now + travel * 100⟩
          assistEnd := if assist then some (m.now + (m.map.pedal d).assistLength * 100) else none
          bridge := r.bridge.switch m.now (if assist then .reverse (m.map.pedal d).assistDuty else .off) }
        { i with
          unitsInUse := i.unitsInUse - (if assist then held - 1 else held)
          damperDown := if d = .damper then false else i.damperDown }
      leavePedalOnly m d o i = if d = .damper then cutShed gone else gone
    (r.holders.has o = false → leavePedalOnly m d o i = i)
      ∧ (r.holders.has o = true → left.holders.isEmpty = false → leavePedalOnly m d o i = setPedal d left i)
      ∧ (r.holders.has o = true → left.holders.isEmpty = true → r.requestMoment.isSome = true →
          leavePedalOnly m d o i = setPedal d { left with requestMoment := none }
            { i with waitList := i.waitList.filter fun e => decide (e.requester ≠ .pedal d) })
      ∧ (r.holders.has o = true → left.holders.isEmpty = true → r.requestMoment = none →
          (r.state = .goingDown → leaves 6) ∧ (r.state = .down → leaves 2)
            ∧ (r.state = .up ∨ r.state = .goingUp → leavePedalOnly m d o i = setPedal d left i)))

/-- STOP in every state but IDLE and REWINDING: the queue is emptied, each discarded STRIKE counting DISCARDED, and the pause effects
follow; both buffers are emptied, no step is outstanding, the stream is CLOSED, ending start, resume target and pause cause are
cleared, and the fault cause, PT and the positions are kept. The session goes to IDLE from FREE, with source STREAM and without
a roll, and else to REWINDING, or to IDLE at once with nothing to rewind (R20, R23, R67). That the first reverse step comes 125 µs later is
log 15, and that a session that goes to IDLE keeps its rewind count is log 29: both are the model's choice. -/
def Obligations.StopStops : Prop :=
  ∀ (l : Link) (s : State), Takes s l (.stop l) → s.holds l = true →
    s.perf.session.state ≠ .idle → s.perf.session.state ≠ .rewinding →
    let toIdle := s.perf.session.state = .free ∨ s.perf.session.source = .stream ∨ s.pins.rollPresent = false
      ∨ s.perf.session.rewindCount = 0
    ∃ session, exec (.stop l) s = .next (respond l (.stop l) .ok [] none
        { s with perf := { s.perf with
            session := session
            queue := { s.perf.queue with entries := [] }
            instrument := pauseInstrument s.moment (countDiscarded s.perf.queue.strikes s.perf.instrument) } })
      ∧ (toIdle → session.state = .idle)
      ∧ (¬ toIdle → session.state = .rewinding ∧ session.direction = .reverse
          ∧ session.reverseStepAt = some (s.perf.now + 125))
      ∧ session.sensorBuffer = [] ∧ session.streamBuffer = [] ∧ session.stepTimer = none
      ∧ session.streamOpen = false ∧ session.endingStart = none ∧ session.resumeTarget = none
      ∧ session.pauseCause = .none ∧ session.intervalEnd = none
      ∧ session.faultCause = s.perf.session.faultCause ∧ session.pt = s.perf.session.pt
      ∧ session.source = s.perf.session.source ∧ session.tempo = s.perf.session.tempo
      ∧ session.rollPosition = s.perf.session.rollPosition
      ∧ session.lastPosition = s.perf.session.lastPosition
      ∧ session.rewindCount = s.perf.session.rewindCount

/-- SET-TEMPO with a period in range, outside IDLE and REWINDING: the tempo period takes the new value, the next interval to begin
is index 0 of a new frame, the interval in progress keeps its end, and the queue's roll entries are rescaled; where no entry is
due after the rescale nothing else changes (R18, R64). -/
def Obligations.TempoChanges : Prop :=
  ∀ (l : Link) (period : BitVec 24) (s : State), Takes s l (.setTempo l period) → s.holds l = true →
    s.perf.session.state ≠ .idle → s.perf.session.state ≠ .rewinding →
    32000 ≤ period.toNat → period.toNat ≤ 200000 →
    let queue := s.perf.queue.rescale s.perf.session.pt period.toNat s.perf.session.tempo
    s.perf.session.state.clockRuns = false ∨ noneDue { s.perf with queue := queue } →
    notCompleting { s.perf with queue := queue } →
    exec (.setTempo l period) s = .next (respond l (.setTempo l period) .ok [] none
      { s with perf := { s.perf with
          session := forwardStep s.perf.now
            { s.perf.session with tempo := period.toNat, newFrame := true }
          queue := queue } })

/-- The rescale of the queue (R64, R65): the entries are the same entries with new times, in order; an entry of the roll that sounds
after PT moves to PT plus its distance times the ratio of the periods, rounded down and capped, its launch time following by
its stored lead; an entry of the roll that does not, and an entry of a link, keep their sounding time. The order is that of sounding
time, then of insertion, for entries of the roll too (log 38, the model's choice). -/
def Obligations.RescaleTimes : Prop :=
  ∀ (pt new old : Nat) (q : Queue),
    let q' := q.rescale pt new old
    q'.entries.Perm (q.entries.map (rescaleEntry pt new old)) ∧ inOrder q'.entries
      ∧ q'.nextSequence = q.nextSequence ∧ q'.rollOverrun = q.rollOverrun
      ∧ ∀ x ∈ q.entries, ∃ y ∈ q'.entries,
          y.action = x.action ∧ y.origin = x.origin ∧ y.lead = x.lead ∧ y.sequence = x.sequence
          ∧ y.rollPosition = x.rollPosition
          ∧ (x.origin ≠ .roll → y = x)
          ∧ (x.origin = .roll → y.launch = y.sounding - y.lead
              ∧ (x.sounding ≤ pt → y.sounding = x.sounding)
              ∧ (pt < x.sounding →
                  y.sounding = min 4294967295 (pt + (x.sounding - pt) * new / old)))

/-- STREAM-LINES that sets nothing off, in CUED, PLAYING, PAUSED, or PREPARING or STARVED short of its threshold: the lines that the
buffer has room for are appended, oldest first; the response is OK with the count accepted and the free space (R13, R16). STREAM-CLOSE
in CUED, PLAYING or PAUSED marks the stream CLOSED and changes nothing else; in STARVED with an empty buffer it ends the roll (R17,
R12, R45). STREAM-LINES that brings the buffer of a STARVED session to 32 lines, and STREAM-CLOSE in STARVED with a line held, end the
starvation (R12): the entries that are due launch first (log 20, the model's choice), then the oldest line is consumed at the standing
PT, its events are queued, timed from that PT and its position (R52, R54), and a new interval begins with the next frame index. -/
def Obligations.StreamLinesAndClose : Prop :=
  (∀ (l : Link) (count : Byte) (lines : List (BitVec 104)) (s : State), Takes s l (.streamLines l count lines) →
    s.holds l = true → s.perf.session.takesStream = true → 1 ≤ count.toNat → count.toNat ≤ 16 →
    let held := s.perf.session.streamBuffer
    let now := held ++ (lines.map trackLineOf).take (128 - held.length)
    (s.perf.session.state = .cued ∨ s.perf.session.state = .playing ∨ s.perf.session.state = .paused
      ∨ (s.perf.session.state = .preparing ∧ now.length < s.map.tracker.soundingDistance + 32)
      ∨ (s.perf.session.state = .starved ∧ now.length < 32) →
    exec (.streamLines l count lines) s = .next (respond l (.streamLines l count lines) .ok
      [BitVec.ofNat 8 (min lines.length (128 - held.length)), BitVec.ofNat 8 (128 - now.length)] none
      { s with perf := { s.perf with session := { s.perf.session with streamBuffer := now } } }))
    ∧ (s.perf.session.state = .starved → 32 ≤ now.length →
        ∃ p, exec (.streamLines l count lines) s = .next (respond l (.streamLines l count lines) .ok
            [BitVec.ofNat 8 (min lines.length (128 - held.length)),
              BitVec.ofNat 8 (128 - p.session.streamBuffer.length)] none { s with perf := p })
          ∧ p.session.state ≠ .starved ∧ (p.session.state.clockRuns = false ∨ noneDue p)
          ∧ (noneDue s.perf → ∀ line rest, now = line :: rest →
              resumesWith s (s.perf.detector.streamLine s.map s.perf.session.rollPosition line) p
                ∧ (p.session.state = .playing → p.session.streamBuffer = rest))))
    ∧ (∀ (l : Link) (s : State), Takes s l (.streamClose l) → s.holds l = true →
    s.perf.session.takesStream = true →
    (s.perf.session.state = .cued ∨ s.perf.session.state = .playing ∨ s.perf.session.state = .paused →
      exec (.streamClose l) s = .next (respond l (.streamClose l) .ok [] none
        { s with perf := { s.perf with session := { s.perf.session with streamOpen := false } } }))
    ∧ (s.perf.session.state = .starved → s.perf.session.streamBuffer = [] →
        ∃ p, exec (.streamClose l) s = .next (respond l (.streamClose l) .ok [] none { s with perf := p })
          ∧ (p.session.state = .ending ∨ p.session.state = .idle)
          ∧ (p.session.state = .ending → p.session.endingStart = some s.perf.session.pt)
          ∧ ∀ t : Track, p.detector.holes[t] = .closed)
    ∧ (∀ line rest, s.perf.session.state = .starved → s.perf.session.streamBuffer = line :: rest →
        ∃ p, exec (.streamClose l) s = .next (respond l (.streamClose l) .ok [] none { s with perf := p })
          ∧ p.session.state ≠ .starved ∧ (p.session.state.clockRuns = false ∨ noneDue p)
          ∧ (noneDue s.perf →
              resumesWith s (s.perf.detector.streamLine s.map s.perf.session.rollPosition line) p
                ∧ (p.session.state = .playing → p.session.streamBuffer = rest ∧ p.session.streamOpen = false))))

/-- The pre-roll of a stream (R8): STREAM-LINES that brings the buffer of a PREPARING session to D + 32 lines, and STREAM-CLOSE in
PREPARING with fewer, consume D lines, or all that are held, from position 0 onward, each read by the track detector and its events
queued, timed from PT 0 at position D - 1 (R52, R54); the session is CUED with PT standing, and the buffer keeps the rest. -/
def Obligations.StreamPreRoll : Prop :=
  ∀ (l : Link) (s : State), s.holds l = true → s.perf.session.takesStream = true →
    s.perf.session.state = .preparing → s.perf.session.rollPosition = 0 →
    let d := s.map.tracker.soundingDistance
    48 ≤ d → d ≤ 96 →
    (∀ count lines, Takes s l (.streamLines l count lines) → 1 ≤ count.toNat → count.toNat ≤ 16 →
      let now := s.perf.session.streamBuffer
        ++ (lines.map trackLineOf).take (128 - s.perf.session.streamBuffer.length)
      now.length ≤ 128 → d + 32 ≤ now.length →
      ∃ p, exec (.streamLines l count lines) s = .next (respond l (.streamLines l count lines) .ok
          [BitVec.ofNat 8 (min lines.length (128 - s.perf.session.streamBuffer.length)),
            BitVec.ofNat 8 (128 - (now.length - d))] none { s with perf := p })
        ∧ p.session = { s.perf.session with
            state := .cued
            streamBuffer := now.drop d
            rollPosition := d
            lastPosition := d - 1 }
        ∧ p.now = s.perf.now ∧ p.expression = s.perf.expression
        ∧ (let q := preRolled s (now.take d)
           p.detector = q.detector ∧ p.queue = q.queue ∧ p.instrument = q.instrument))
    ∧ (Takes s l (.streamClose l) → s.perf.session.streamBuffer.length < d + 32 →
        ∃ p, exec (.streamClose l) s = .next (respond l (.streamClose l) .ok [] none { s with perf := p })
          ∧ p.session.state = .cued ∧ p.session.streamOpen = false ∧ p.session.streamBuffer = []
          ∧ p.session.rollPosition = s.perf.session.streamBuffer.length
          ∧ p.session.pt = s.perf.session.pt
          ∧ (let q := preRolled s s.perf.session.streamBuffer
             p.detector = q.detector ∧ p.queue = q.queue ∧ p.instrument = q.instrument))

/-! ### Live play -/

/-- The checks of a live request, in their order (R182): the admission, the values, the supply, the clock for AT timing and for a hold
length, and the queue. The first that fails gives the response, and nothing changes. -/
def Obligations.LiveRefusals : Prop :=
  ∀ (c : Instr) (l : Link) (s : State), requestLink c = some l → isLive c = true → Takes s l c →
    (s.admits l = false → exec c s = .next (respond l c .notAdmitted [] none s))
    ∧ (s.admits l = true → liveFieldsValid c = false →
        exec c s = .next (respond l c .outOfRange [] none s))
    ∧ (s.admits l = true → liveFieldsValid c = true →
        (s.perf.instrument.monitor = .critical →
          exec c s = .next (respond l c .supplyCritical [] none s))
        ∧ (s.perf.instrument.monitor ≠ .critical → 0 < livePlaces c →
            (s.perf.session.state.clockRuns = false →
              exec c s = .next (respond l c .clockStopped [] none s))
            ∧ (s.perf.session.state.clockRuns = true →
                512 < s.perf.queue.entries.length + livePlaces c →
                exec c s = .next (respond l c .queueFull [] none s))))

/-- The insertion of an entry (R51, R56, R68): the entry made now takes the next sequence number, with the lead of its kind (R55); a STRIKE
counts ACCEPTED. While the clock runs, an entry whose launch time has come goes to its owner at once and does not stay; any other takes
its place in the queue, after every entry that sounds no later and before every entry that sounds later. A hole event of the roll
becomes the entry of the table of R54, timed from its reference by the tempo period and the sounding distance (R52, R53); where the queue
is full it is refused: ROLL-OVERRUN counts with its notice, a strike counts ACCEPTED and DISCARDED, a release and a pedal-up act at once
and count EARLY-RELEASE, and anything else is lost (R56, R61 to R63). -/
def Obligations.EntryInsertion : Prop :=
  (∀ (e : Env) (x : Entry) (p : Performance),
    let counted : Instrument := { p.instrument with
      accepted := p.instrument.accepted + (if x.action.isStrike then 1 else 0) }
    (p.session.state.clockRuns = true → x.launch ≤ p.session.pt →
      insertEntry e x p = handOver e x { p with
        queue := { p.queue with
          nextSequence := p.queue.nextSequence + 1
          insertions := p.queue.insertions + 1 }
        instrument := counted })
    ∧ (p.session.state.clockRuns = false ∨ p.session.pt < x.launch →
        insertEntry e x p = { p with queue := p.queue.insert x, instrument := counted }
          ∧ (p.queue.insert x).nextSequence = p.queue.nextSequence + 1
          ∧ (p.queue.insert x).insertions = p.queue.insertions + 1
          ∧ (p.queue.insert x).rollOverrun = p.queue.rollOverrun
          ∧ (inOrder p.queue.entries → (∀ y ∈ p.queue.entries, y.order < x.order) →
              ∃ before after, p.queue.entries = before ++ after
                ∧ (p.queue.insert x).entries = before ++ x :: after
                ∧ (∀ y ∈ before, y.sounding ≤ x.sounding) ∧ ∀ y ∈ after, x.sounding < y.sounding)))
    ∧ (∀ (map : RegulationMap) (a : Action) (o : Origin) (sounding : Nat) (position : Option Nat) (q : Queue),
        newEntry map a o sounding position q
            = ⟨a, o, sounding, leadOf map a, sounding - leadOf map a, q.nextSequence, q.insertions, position⟩
          ∧ (∀ k accented mode hold, a = .strike k accented mode hold →
              leadOf map a = max (max map.keys[k].latency0 map.keys[k].latency1)
                (max map.keys[k].latency2 map.keys[k].latency3) + map.keys[k].shiftOffset)
          ∧ (∀ k, a = .release k → leadOf map a = map.keys[k].releaseLead)
          ∧ (∀ d, a = .pedalDown d → leadOf map a = (map.pedal d).downLead)
          ∧ (∀ d, a = .pedalUp d → leadOf map a = (map.pedal d).upLead)
          ∧ (∀ kind h, a = .expression kind h → leadOf map a = 0)
          ∧ leadOf map .sectionMark = 0 ∧ leadOf map .endMark = 0)
    ∧ (∀ (ev : HoleEvent),
        let t := ev.track.val
        let half : HalfName := if t < 50 then .bass else .treble
        let made (kind : EventKind) (a : Option Action) : Prop := ev.kind = kind → trackAction ev = a
        (∀ k : Key, k.val + 1 = t - 4 → t ≤ 92 → 5 ≤ t →
          made .holeStart (some (.strike k ev.accented .expression none)) ∧ made .holeEnd (some (.release k)))
        ∧ (t = 0 ∨ t = 97 → made .holeStart (some (.expression .slowOn half))
            ∧ made .holeEnd (some (.expression .slowOff half)))
        ∧ (t = 1 ∨ t = 96 → made .holeStart (some (.expression .fastOn half))
            ∧ made .holeEnd (some (.expression .fastOff half)))
        ∧ (t = 2 ∨ t = 95 → made .punch (some (.expression .hookToggle half))
            ∧ made .slotStart (some (.expression .freezeOn half))
            ∧ made .slotEnd (some (.expression .freezeOff half)))
        ∧ (t = 4 → made .holeStart (some (.pedalDown .shift)) ∧ made .holeEnd (some (.pedalUp .shift)))
        ∧ (t = 93 → made .holeStart (some (.pedalDown .damper)) ∧ made .holeEnd (some (.pedalUp .damper)))
        ∧ (t = 98 → made .punch (some .sectionMark) ∧ made .slotStart (some .endMark) ∧ made .slotEnd none)
        ∧ (t = 3 ∨ t = 94 → trackAction ev = none))
    ∧ ∀ (e : Env) (ref : Reference) (ev : HoleEvent) (p : Performance),
        let sounding := min 4294967295 (ref.time
          + (ev.position + e.map.tracker.soundingDistance - ref.position) * p.session.tempo / 3200)
        let lost : Performance := { p with
          queue := { p.queue with rollOverrun := p.queue.rollOverrun + 1 }
          instrument := { p.instrument with
            noticesA := p.instrument.noticesA ||| 0x001
            noticesB := p.instrument.noticesB ||| 0x001 } }
        let early (i : Instrument) : Instrument := { i with earlyRelease := i.earlyRelease + 1 }
        let becomes (p' : Performance) : Prop := queueEvent e ref ev p = p'
        (trackAction ev = none → becomes p)
        ∧ ∀ a, trackAction ev = some a →
            (p.queue.entries.length < 512 →
              becomes (insertEntry e (newEntry e.map a .roll sounding (some ev.position) p.queue) p))
            ∧ (512 ≤ p.queue.entries.length →
                (∀ k accented mode hold, a = .strike k accented mode hold →
                  becomes { lost with instrument := { lost.instrument with
                    accepted := p.instrument.accepted + 1
                    discarded := p.instrument.discarded + 1 } })
                ∧ (∀ k, a = .release k → becomes { lost with
                    instrument := early (release k .roll (p.moment e) lost.instrument) })
                ∧ (∀ d, a = .pedalUp d → becomes { lost with
                    instrument := early (pedalUp d .roll (p.moment e) lost.instrument) })
                ∧ (a.isStrike = false → (∀ k, a ≠ .release k) → (∀ d, a ≠ .pedalUp d) → becomes lost))

/-- An accepted LIVE-STRIKE (R183, R57, R58). AT: a STRIKE entry is inserted at PT plus the offset, and with a hold length a RELEASE
that long after it, each with the sequence number that the response carries. NOW: the RELEASE of the hold length is inserted, and
the strike arrives at the key with no accent and no sounding time, counting ACCEPTED. -/
def Obligations.LiveStrikes : Prop :=
  ∀ (l : Link) (key options velocity : Byte) (offset holdLength : BitVec 16) (k : Key) (s : State),
    LiveTaken s l (.liveStrike l key options velocity offset holdLength) → key.toNat = k.val + 1 →
    let c := Instr.liveStrike l key options velocity offset holdLength
    let mode : VelocityMode := if options.getLsbD 0 then .fixed velocity.toNat else .expression
    let pt := s.perf.session.pt
    let q := s.perf.queue
    let at_ := min 4294967295 (pt + offset.toNat)
    let first := leBytes 2 q.nextSequence.toNat
    let arriveNow (p : Performance) : Performance := { p with
      instrument := arrive p.expression k ⟨originOf l, none, false, mode⟩ (p.moment s.env)
        { p.instrument with accepted := p.instrument.accepted + 1 } }
    (options.getLsbD 1 = true → options.getLsbD 2 = false →
      exec c s = .next (respond l c .ok first none
        (settled s (insertEntry s.env (liveEntry s l (.strike k false mode none) at_ q) s.perf))))
    ∧ (options.getLsbD 1 = true → options.getLsbD 2 = true →
        let struck := insertEntry s.env (liveEntry s l (.strike k false mode (some holdLength.toNat)) at_ q) s.perf
        let y := liveEntry s l (.release k) (min 4294967295 (at_ + holdLength.toNat)) struck.queue
        exec c s = .next (respond l c .ok (first ++ leBytes 2 (q.nextSequence + 1).toNat) none
          (settled s (insertEntry s.env y struck))))
    ∧ (options.getLsbD 1 = false → options.getLsbD 2 = false →
        exec c s = .next (respond l c .ok [] none (settled s (arriveNow s.perf))))
    ∧ (options.getLsbD 1 = false → options.getLsbD 2 = true →
        let y := liveEntry s l (.release k) (min 4294967295 (pt + holdLength.toNat)) q
        exec c s = .next (respond l c .ok first none (settled s (arriveNow (insertEntry s.env y s.perf)))))

/-- An accepted LIVE-RELEASE or LIVE-PEDAL (R184, R185): NOW it goes to the key or the pedal at once with the link as its source; AT it
is entered in the queue at PT plus the offset, and the response carries its sequence number. -/
def Obligations.LiveReleasesAndPedals : Prop :=
  ∀ (l : Link) (options : Byte) (offset : BitVec 16) (s : State),
    let at_ := min 4294967295 (s.perf.session.pt + offset.toNat)
    let entered (c : Instr) (a : Action) : Prop :=
      exec c s = .next (respond l c .ok (leBytes 2 s.perf.queue.nextSequence.toNat) none
        (settled s (insertEntry s.env (liveEntry s l a at_ s.perf.queue) s.perf)))
    let atOnce (c : Instr) (f : Moment → Instrument → Instrument) : Prop :=
      exec c s = .next (respond l c .ok [] none
        (settled s { s.perf with instrument := f s.moment s.perf.instrument }))
    (∀ key (k : Key), LiveTaken s l (.liveRelease l key options offset) → key.toNat = k.val + 1 →
      let c := Instr.liveRelease l key options offset
      (options = 0 → atOnce c (release k (originOf l))) ∧ (options = 2 → entered c (.release k)))
    ∧ (∀ pedal (d : PedalName), LiveTaken s l (.livePedal l pedal options offset) →
        (pedal = 0 ∧ d = .damper) ∨ (pedal = 1 ∧ d = .shift) →
        let c := Instr.livePedal l pedal options offset
        (options = 0 → atOnce c (pedalDown d (originOf l)))
        ∧ (options = 1 → atOnce c (pedalUp d (originOf l)))
        ∧ (options = 2 → entered c (.pedalDown d))
        ∧ (options = 3 → entered c (.pedalUp d)))

/-- What follows every change of the performance (R14, R22): a session in ENDING with nothing of the roll left completes, with the stop
of R20 and the notice ROLL-END on both links; otherwise only the forward step that R14 calls for is issued, which is one pulse
forward, its 20 ms timer, and one more to rewind. -/
def Obligations.SettleCompletes : Prop :=
  ∀ (e : Env) (p : Performance),
    (p.session.state ≠ .ending ∨ rollIsDone p = false →
      settle e p = { p with session :=
        if p.session.wantsStep then
          { p.session with
            direction := .forward
            stepPulses := p.session.stepPulses + 1
            stepTimer := some (p.now + 20000)
            rewindCount := p.session.rewindCount + 1 }
        else p.session })
    ∧ (p.session.state = .ending → rollIsDone p = true →
        (settle e p).session.state = (if p.session.source = .stream ∨ e.rollPresent = false
            ∨ p.session.rewindCount = 0 then .idle else .rewinding)
          ∧ (settle e p).queue.entries = []
          ∧ (settle e p).session.endingStart = none
          ∧ (settle e p).session.pt = p.session.pt
          ∧ (settle e p).instrument.noticesA &&& noticeBit .rollEnd = noticeBit .rollEnd
          ∧ (settle e p).instrument.noticesB &&& noticeBit .rollEnd = noticeBit .rollEnd)

/-! ### The regulation map and the profile store -/

/-- WRITE-RECORD (R153, R180, R157): every record in range, written from its characters, replaces that record of the working map and
answers OK; contents that name no record in range are OUT-OF-RANGE, and the tracker record outside IDLE and FREE is BAD-STATE. A
write of a record other than expression and supply changes the map alone. One of the expression record leaves the halves and the trim,
and decides the next step as R78 says (log 22 gives what the model holds for it). One of the supply record sets every drop moment again,
drops in list order the entries whose moment has come, and runs one grant pass (R150; one pass after all drops is log 13, the model's
choice). -/
def Obligations.MapWrites : Prop :=
  ∀ (l : Link) (s : State),
    s.otherHolds l = false ∨ s.perf.session.state.inProgress = false →
    (∀ w : RecordWrite, w.valid = true →
      let c := Instr.writeRecord l (recordSelector w) (recordIndex w) (recordContents w)
      let t : State := { s with map := s.map.write w }
      Takes s l c →
      (recordSelector w = 3 → s.perf.session.state = .idle ∨ s.perf.session.state = .free) →
      (recordSelector w ≠ 2 → recordSelector w ≠ 4 →
        exec c s = .next (respond l c .ok [] none t))
      ∧ (recordSelector w = 2 → ∃ x, stepsAnew s (s.map.write w) x
          ∧ exec c s = .next (respond l c .ok [] none { t with perf := { s.perf with expression := x } }))
      ∧ (∀ r, w = .supply r →
          let i := s.perf.instrument
          let again := i.waitList.map fun e => { e with dropMoment := e.requestMoment + r.lateLimit * 1000 }
          let due := again.filter fun e => decide (e.dropMoment ≤ s.perf.now)
          exec c s = .next (respond l c .ok [] none (settled t { s.perf with
            instrument := pass t.moment
              (due.foldl (fun acc e => dropOnly t.moment e acc) { i with waitList := again }) }))
          ∧ (due = [] → exec c s = .next (respond l c .ok [] none (settled t { s.perf with
              instrument := pass t.moment { i with waitList := again } })))))
    ∧ (∀ selector index contents,
        let c := Instr.writeRecord l selector index contents
        Takes s l c →
        (selector = 3 → s.perf.session.state ≠ .idle → s.perf.session.state ≠ .free →
          exec c s = .next (respond l c .badState [] none s))
        ∧ (selector ≠ 3 ∨ s.perf.session.state = .idle ∨ s.perf.session.state = .free →
            recordOf selector index contents = none →
            exec c s = .next (respond l c .outOfRange [] none s)))

/-- LOAD-PROFILE (R164, R165): the checks in their order, and a load taken on a quiet instrument that waits for nothing: the working map
takes the profile's contents, the active profile its number, and the boot choice it too where the boot flag is yes; of the expression
unit only what decides the next step may change (R78, log 22). That a boot flag code of 2 or more is OUT-OF-RANGE at the place of the
profile number's check is the model's choice (log 30). -/
def Obligations.ProfileLoads : Prop :=
  ∀ (l : Link) (profile boot : Byte) (s : State),
    let c := Instr.loadProfile l profile boot
    Takes s l c → s.otherHolds l = false →
    (4 ≤ profile.toNat ∨ 2 ≤ boot.toNat → exec c s = .next (respond l c .outOfRange [] none s))
    ∧ (∀ n : Fin 4, profile.toNat = n.val → boot.toNat < 2 →
        (s.store.commit ≠ none → exec c s = .next (respond l c .storeBusy [] none s))
        ∧ (s.store.commit = none →
            (s.quiet = false → exec c s = .next (respond l c .badState [] none s))
            ∧ (s.quiet = true → s.store.profiles[n].intact = false →
                exec c s = .next (respond l c .profileDamaged [] none s))
            ∧ (s.quiet = true → s.store.profiles[n].intact = true →
                s.perf.instrument.waitList = [] → ∃ x, stepsAnew s s.store.profiles[n].contents x
                ∧ exec c s = .next (respond l c .ok [] none { s with
                  map := s.store.profiles[n].contents
                  store := { s.store with
                    active := n
                    bootChoice := if boot = 1 then n else s.store.bootChoice }
                  perf := { s.perf with expression := x } }))))

/-- COMMIT-PROFILE (R160, R166): the checks in their order, and an accepted commit: the snapshot of the working map is taken, the profile
is INCOMPLETE, the store is ERASING from now, and the answer is ACCEPTED. A commit runs in real time (R167): it is ERASING for 60 ms
after acceptance, then PROGRAMMING until 180 ms after it; then the profile holds the snapshot and is INTACT with its protection kept,
the boot choice follows the boot flag, the store is IDLE and PROFILE-DONE is pending on both links. That a boot flag code of 2 or more is
OUT-OF-RANGE at the place of the profile number's check is log 30, and that the profile keeps its former contents while it is erased and
programmed is log 34: both are the model's choice. -/
def Obligations.CommitsBeginAndRun : Prop :=
  (∀ (l : Link) (profile boot : Byte) (s : State),
    let c := Instr.commitProfile l profile boot
    Takes s l c → s.otherHolds l = false →
    (4 ≤ profile.toNat ∨ 2 ≤ boot.toNat → exec c s = .next (respond l c .outOfRange [] none s))
    ∧ (∀ n : Fin 4, profile.toNat = n.val → boot.toNat < 2 →
        let protection := s.store.profiles[n].protection
        let free := protection = .open_ ∨ (protection = .guarded ∧ s.pins.serviceLine = true)
        (¬ free → exec c s = .next (respond l c .protected_ [] none s))
        ∧ (free → s.store.commit ≠ none → exec c s = .next (respond l c .storeBusy [] none s))
        ∧ (free → s.store.commit = none →
            exec c s = .next (respond l c .accepted [] none { s with
              store := { s.store with
                profiles := s.store.profiles.set n { s.store.profiles[n] with intact := false }
                commit := some ⟨n, s.map, decide (boot = 1), s.perf.now, false⟩ } }))))
    ∧ (∀ (c : Commit) (s : State), s.store.commit = some c →
    (c.programming = false → s.perf.now ≤ c.acceptedAt + 60000 →
      exec .eraseEnd s = .next { s with
          perf := advanceTo (c.acceptedAt + 60000) s.perf
          store := { s.store with commit := some { c with programming := true } } }
        ∧ (advanceTo (c.acceptedAt + 60000) s.perf).now = c.acceptedAt + 60000)
    ∧ (c.programming = true → s.perf.now ≤ c.acceptedAt + 180000 → ∃ p,
        exec .commitCompletion s = .next { s with
            perf := p
            store := { s.store with
              profiles := s.store.profiles.set c.profile
                { s.store.profiles[c.profile] with contents := c.snapshot, intact := true }
              bootChoice := if c.boot then c.profile else s.store.bootChoice
              commit := none } }
          ∧ p.now = c.acceptedAt + 180000
          ∧ p.instrument = { s.perf.instrument with
              noticesA := s.perf.instrument.noticesA ||| 0x800
              noticesB := s.perf.instrument.noticesB ||| 0x800 }
          ∧ p.queue = s.perf.queue ∧ p.session.state = s.perf.session.state))

/-- SET-PROTECTION (R161): it is refused NOT-HOLDER while the other link holds the claim; then the values, the store state and the
table of the changes that are taken, with and without the service line; a change taken sets the profile's protection and nothing else,
and a refused one changes nothing. -/
def Obligations.ProtectionChanges : Prop :=
  ∀ (l : Link) (profile code : Byte) (s : State),
    let c := Instr.setProtection l profile code
    let refused (x : Result) : Prop := exec c s = .next (respond l c x [] none s)
    Takes s l c →
    (s.otherHolds l = true → refused .notHolder)
    ∧ (s.otherHolds l = false → 4 ≤ profile.toNat ∨ 4 ≤ code.toNat → refused .outOfRange)
    ∧ (∀ (n : Fin 4) (new : Protection), s.otherHolds l = false → profile.toNat = n.val →
        (code = 0 ∧ new = .open_) ∨ (code = 1 ∧ new = .guarded) ∨ (code = 2 ∧ new = .lockedUntilPower)
          ∨ (code = 3 ∧ new = .fixed) →
        let old := s.store.profiles[n].protection
        let allowed := old = new ∨ (old = .open_ ∧ (new ≠ .fixed ∨ s.pins.serviceLine = true))
          ∨ (old = .guarded ∧ (new = .lockedUntilPower ∨ s.pins.serviceLine = true))
          ∨ (old = .lockedUntilPower ∧ new = .fixed ∧ s.pins.serviceLine = true)
        (s.store.commit ≠ none → refused .storeBusy)
        ∧ (s.store.commit = none → allowed →
            exec c s = .next (respond l c .ok [] none { s with
              store := { s.store with
                profiles := s.store.profiles.set n { s.store.profiles[n] with protection := new } } }))
        ∧ (s.store.commit = none → ¬ allowed → refused .protected_))

/-! ### Reading, standby and power -/

/-- The reading requests, SET-LINK-RATE, LINK-RESET and an unknown request change nothing but the response that they make (R192, R198,
R201 to R203, R206). The status record, the key data and the queue data are laid out as Sections 10.7.7 and 10.7.8 give them, each number
least significant character first; that times are rounded down to 0.1 ms is log 27, the model's choice. SET-LINK-RATE to the rate in use
as it is executed calls for no change; to another, for a change after its response (R198; log 36 for the moment it is judged).
CLEAR-COUNTERS (R202): every counter and noise count becomes 0, but for ACCEPTED, which becomes the number of strikes queued, armed and
pending; nothing else changes, and the books balance after it. -/
def Obligations.ReadsAndClear : Prop :=
  (∀ (l : Link) (s : State),
    (Takes s l (.readStatus l) →
      exec (.readStatus l) s = .next (respond l (.readStatus l) .ok (statusRecord s) none s)
        ∧ statusRecord s = laidOut (statusLayout s)
        ∧ (statusRecord s).length = 35)
    ∧ (∀ group, Takes s l (.readCounters l group) →
        let c := Instr.readCounters l group
        let i := s.perf.instrument
        let d := s.perf.detector
        let counters : List Counter :=
          [i.accepted, i.fired, i.merged, i.dropped, i.discarded, i.late, i.cut, i.shed, i.earlyRelease, i.pedalDropped,
            s.perf.queue.rollOverrun, s.perf.session.scanStray, s.perf.session.rollRemoved, d.pinhole, d.ambiguous,
            d.badLine, s.linkA.frameError, s.linkA.overrun, s.linkA.stray, s.linkB.frameError, s.linkB.overrun,
            s.linkB.stray]
        (group = 0 → exec c s = .next (respond l c .ok (counters.flatMap fun x => leBytes 4 x.toNat) none s))
        ∧ (group = 1 → exec c s = .next (respond l c .ok
            (s.perf.detector.noise.toList.flatMap fun n => leBytes 2 n) none s))
        ∧ (2 ≤ group.toNat → exec c s = .next (respond l c .outOfRange [] none s)))
    ∧ (∀ key, Takes s l (.readKey l key) →
        let c := Instr.readKey l key
        (∀ k : Key, key.toNat = k.val + 1 →
          exec c s = .next (respond l c .ok (keyData s.perf.now s.perf.instrument.keys[k]) none s)
            ∧ keyData s.perf.now s.perf.instrument.keys[k] = laidOut (keyLayout s.perf.now s.perf.instrument.keys[k])
            ∧ (keyData s.perf.now s.perf.instrument.keys[k]).length = 29)
        ∧ (key.toNat = 0 ∨ 88 < key.toNat → exec c s = .next (respond l c .outOfRange [] none s)))
    ∧ (Takes s l (.readQueue l) →
        exec (.readQueue l) s = .next (respond l (.readQueue l) .ok (queueData s.perf.queue) none s)
          ∧ queueData s.perf.queue = laidOut ((2, s.perf.queue.entries.length)
            :: (s.perf.queue.entries.take 8).flatMap entryLayout)
          ∧ (queueData s.perf.queue).length = 2 + 26 * min 8 s.perf.queue.entries.length)
    ∧ (∀ code, Takes s l (.setLinkRate l code) →
        let c := Instr.setLinkRate l code
        (∀ r, (code = 0 ∧ r = .r250k) ∨ (code = 1 ∧ r = .r500k) ∨ (code = 2 ∧ r = .r1M) ∨ (code = 3 ∧ r = .r2M) →
          exec c s = .next (respond l c .ok [] (if r = (s.link l).rate then none else some (.rate r)) s))
        ∧ (4 ≤ code.toNat → exec c s = .next (respond l c .outOfRange [] none s)))
    ∧ (Takes s l (.linkReset l) → s.otherHolds l = false →
        exec (.linkReset l) s = .next (respond l (.linkReset l) .ok [] (some .linkReset) s))
    ∧ (∀ kind body, Takes s l (.unknownRequest l kind body) →
        exec (.unknownRequest l kind body) s
          = .next (respond l (.unknownRequest l kind body) .unknownRequest [] none s)))
    ∧ (∀ n v : Nat, (leBytes n v).length = n
        ∧ ∀ i, i < n → (leBytes n v)[i]? = some (BitVec.ofNat 8 (v / 256 ^ i)))
    ∧ (∀ (l : Link) (s : State), Takes s l (.clearCounters l) → ∃ t,
    exec (.clearCounters l) s = .next (respond l (.clearCounters l) .ok [] none t)
      ∧ strikesConserved t.perf
      ∧ t = { s with
          perf := { s.perf with
            session := { s.perf.session with scanStray := 0, rollRemoved := 0 }
            detector := { s.perf.detector with
              noise := Vector.replicate 99 0, pinhole := 0, ambiguous := 0, badLine := 0 }
            queue := { s.perf.queue with rollOverrun := 0 }
            instrument := { s.perf.instrument with
              accepted := BitVec.ofNat 32 (s.perf.queue.strikes + keyStrikes s.perf.instrument)
              fired := 0, merged := 0, dropped := 0, discarded := 0, late := 0, cut := 0, shed := 0
              earlyRelease := 0, pedalDropped := 0 } }
          linkA := { s.linkA with frameError := 0, overrun := 0, stray := 0 }
          linkB := { s.linkB with frameError := 0, overrun := 0, stray := 0 } })

/-- Standby and the wake (R204, R205): STANDBY is taken when nothing plays and no commit runs, and drops the claim; at the end of its
response the part enters standby if the conditions still hold, or wakes at once where the service line is asserted; the service line,
and a rise of the roll-present line (any rise in standby: log 17, the model's choice), wake it for 8 ms of stabilisation; while the part
does not run the fall of the roll-present line and a change of the supply indications change the input alone; at the end of the 8 ms it
runs, both receivers wait for a break, and the monitor level is read. -/
def Obligations.StandbyAndWake : Prop :=
  ∀ (l : Link) (s : State),
    let woken : Power := { s.power with state := .waking, wakeEnd := some (s.perf.now + 8000) }
    (Takes s l (.standby l) → s.otherHolds l = false →
      (s.quiet = false ∨ s.store.commit ≠ none →
        exec (.standby l) s = .next (respond l (.standby l) .badState [] none s))
      ∧ (s.quiet = true → s.store.commit = none →
          exec (.standby l) s = .next (respond l (.standby l) .ok [] (some .standby)
            { s with claim := { s.claim with held := none } })))
    ∧ (s.power.state = .running → AfterAction.standby ∈ (s.link l).due → s.quiet = true → s.store.commit = none →
        ∃ t, exec (.standbyEntry l) s = .next t
          ∧ t.power = (if s.pins.serviceLine then woken else { s.power with state := .standby })
          ∧ t.linkA.receiver = .waitBreak ∧ t.linkB.receiver = .waitBreak
          ∧ (t.link l).due = (s.link l).due.erase .standby
          ∧ t.perf = s.perf ∧ t.map = s.map ∧ t.store = s.store ∧ t.claim = s.claim ∧ t.pins = s.pins)
    ∧ (AfterAction.standby ∈ (s.link l).due → s.quiet = false ∨ s.store.commit ≠ none →
        ∃ t, exec (.standbyEntry l) s = .next t ∧ t.power = s.power ∧ t.perf = s.perf ∧ t.store = s.store)
    ∧ (∀ asserted,
        exec (.serviceLine asserted) s = .next { s with
          pins := { s.pins with serviceLine := asserted }
          power := if asserted = true ∧ s.power.state = .standby then woken else s.power })
    ∧ exec (.rollPresentChange true) s = .next { s with
        pins := { s.pins with rollPresent := true }
        power := if s.pins.rollPresent = false ∧ s.power.state = .standby then woken else s.power }
    ∧ (s.running = false →
        exec (.rollPresentChange false) s = .next { s with pins := { s.pins with rollPresent := false } })
    ∧ (∀ low critical, s.running = false → exec (.monitorLevelChange low critical) s
        = .next { s with pins := { s.pins with lowIndication := low, criticalIndication := critical } })
    ∧ (∀ t, s.power.state = .waking → s.power.wakeEnd = some t → s.perf.now ≤ t →
        ∃ u, exec .stabilisationEnd s = .next u
          ∧ u.power = { s.power with state := .running, wakeEnd := none }
          ∧ u.perf.now = t
          ∧ u.perf.instrument.monitor
            = (if s.pins.criticalIndication then .critical
              else if s.pins.lowIndication then .low else .normal)
          ∧ u.linkA.receiver = .waitBreak ∧ u.linkA.breakArmed = s.linkA.lineHigh
          ∧ u.linkB.receiver = .waitBreak ∧ u.linkB.breakArmed = s.linkB.lineHigh
          ∧ u.map = s.map ∧ u.store = s.store ∧ u.claim = s.claim ∧ u.pins = s.pins)

/-- The resets (R162, R168, R169, R206, R207). POWER-ON and SUPPLY-FAIL open the locked profiles, LINK-RESET at the end of its
response and the reset line do not; a reset of any kind cuts a commit short: its profile is INCOMPLETE, with contents that are a free value
(log 12), and the boot choice is kept; the map is loaded from the boot choice, or from profile 0 where that is INCOMPLETE; every block
takes its reset values; the record holds the kind and the from-standby flag. While the reset line is asserted the part stays in reset
(whatever the kind: log 19, the model's choice), and its deassertion starts the part. -/
def Obligations.Resets : Prop :=
  ∀ s : State,
    let opened (v : Vector Profile 4) := v.map fun p =>
      if p.protection = .lockedUntilPower then { p with protection := .open_ } else p
    let started (power : Power) (profiles : Vector Profile 4) (t : State) : Prop :=
      let active : Fin 4 := if profiles[s.store.bootChoice].intact then s.store.bootChoice else 0
      t.map = profiles[active].contents
        ∧ t.store = ⟨profiles, s.store.bootChoice, active, !profiles[s.store.bootChoice].intact, none⟩
        ∧ t.perf = Performance.reset profiles[active].contents.expression.restLevel
            (if s.pins.criticalIndication then .critical
              else if s.pins.lowIndication then .low else .normal)
        ∧ t.claim = ⟨none, .both⟩
        ∧ t.linkA = LinkRecord.reset s.linkA.lineHigh ∧ t.linkB = LinkRecord.reset s.linkB.lineHigh
        ∧ t.power = power
        ∧ t.pending = s.pending
    let fromStandby := decide (s.power.state = .standby) || decide (s.power.state = .waking)
    let state : PowerState := if s.pins.resetLine then .held else .running
    (∃ kept : Vector Profile 4,
      (s.store.commit = none → kept = s.store.profiles)
      ∧ (∀ c, s.store.commit = some c → ∃ contents,
          kept = s.store.profiles.set c.profile ⟨contents, false, s.store.profiles[c.profile].protection⟩)
      ∧ (∃ t, exec .powerOn s = .next t ∧ started ⟨state, none, .powerOn, fromStandby⟩ (opened kept) t ∧ t.pins = s.pins)
      ∧ (∃ t, exec .supplyFail s = .next t ∧ started ⟨state, none, .supplyFail, fromStandby⟩ (opened kept) t
          ∧ t.pins = s.pins)
      ∧ (∀ l, AfterAction.linkReset ∈ (s.link l).due →
          ∃ t, exec (.linkResetExecute l) s = .next t ∧ started ⟨state, none, .linkReset, fromStandby⟩ kept t
            ∧ t.pins = s.pins)
      ∧ (s.power.state ≠ .held →
          ∃ t, exec .resetLine s = .next t ∧ started ⟨.held, none, .resetLine, fromStandby⟩ kept t
            ∧ t.pins = { s.pins with resetLine := true }))
    ∧ (s.power.state = .held →
        exec .resetLine s = .next { s with pins := { s.pins with resetLine := true } }
          ∧ (s.store.commit = none →
              ∃ t, exec .resetLineDeassertion s = .next t
                ∧ started { s.power with state := .running } s.store.profiles t
                ∧ t.pins = { s.pins with resetLine := false }))
    ∧ (s.power.state ≠ .held →
        exec .resetLineDeassertion s = .next { s with pins := { s.pins with resetLine := false } })

/-- The reset values that the spec gives the blocks (R1, R47, R49, R69, R85, R117, R119, R135, R136, R171, R187, R199): after a reset
with a rest level and a monitor level the session is IDLE, everything is at rest, empty, absent or 0, the trim is 7, and nothing
holds the claim. The model's first state is a POWER-ON of a part as it leaves the factory (R159), with every input deasserted and both
receive lines high: that is logs 1 and 2, the model's choice, and so are the rest level 40, the level NORMAL, the map, the store and the
power state that it gives State.reset. -/
def Obligations.ResetValues : Prop :=
  ∀ (restLevel : Nat) (level : MonitorLevel) (lineHigh : Bool),
    let p := Performance.reset restLevel level
    let half : Half := ⟨restLevel, false, false, false, false⟩
    let r := LinkRecord.reset lineHigh
    p.session.state = .idle ∧ p.session.source = .sensor ∧ p.session.pt = 0 ∧ p.session.state.clockRuns = false
    ∧ p.session.rollPosition = 0 ∧ p.session.lastPosition = 0 ∧ p.session.tempo = 80000
    ∧ p.session.frameIndex = 0 ∧ p.session.sensorBuffer = [] ∧ p.session.stepTimer = none
    ∧ p.session.rewindCount = 0 ∧ p.session.streamBuffer = [] ∧ p.session.streamOpen = false
    ∧ p.session.endingStart = none ∧ p.session.resumeTarget = none ∧ p.session.pauseCause = .none
    ∧ p.session.faultCause = .none ∧ p.session.scanStray = 0 ∧ p.session.rollRemoved = 0
    ∧ p.detector.appliedOffset = 0 ∧ p.detector.badRun = 0 ∧ p.detector.goodRun = 0
    ∧ (∀ t : Track, p.detector.holes[t] = .closed ∧ p.detector.noise[t] = 0)
    ∧ p.detector.pinhole = 0 ∧ p.detector.ambiguous = 0 ∧ p.detector.badLine = 0
    ∧ p.queue.entries = [] ∧ p.queue.nextSequence = 0 ∧ p.queue.rollOverrun = 0
    ∧ p.expression.bass = half ∧ p.expression.treble = half ∧ p.expression.trim = 7
    ∧ (∀ k : Key,
        let x := p.instrument.keys[k]
        x.state = .rest ∧ x.holders.isEmpty = true ∧ x.armed = none ∧ x.pending = none ∧ x.driveEnd = none
          ∧ x.holdStart = none ∧ x.returnEnd = none ∧ x.requestMoment = none ∧ x.channel.setting = .off)
    ∧ (∀ d : PedalName,
        let x := p.instrument.pedal d
        x.state = .up ∧ x.requestMoment = none ∧ x.holders.isEmpty = true ∧ x.travel = none ∧ x.assistEnd = none
          ∧ x.bridge.setting = .off ∧ x.position p.now = 0)
    ∧ p.instrument.accepted = 0 ∧ p.instrument.fired = 0 ∧ p.instrument.merged = 0 ∧ p.instrument.dropped = 0
    ∧ p.instrument.discarded = 0 ∧ p.instrument.late = 0 ∧ p.instrument.cut = 0 ∧ p.instrument.shed = 0
    ∧ p.instrument.earlyRelease = 0 ∧ p.instrument.pedalDropped = 0 ∧ p.instrument.monitor = level
    ∧ p.instrument.unitsInUse = 0 ∧ p.instrument.damperDown = false ∧ p.instrument.waitList = []
    ∧ p.instrument.noticesA = 0 ∧ p.instrument.noticesB = 0
    ∧ r.up = false ∧ r.rate = .r500k ∧ r.receiver = .waitBreak ∧ r.breakArmed = true ∧ r.slots = []
    ∧ r.transmitQueue = [] ∧ r.sending = none ∧ r.overrunFlag = false ∧ r.mask = 0xFFF
    ∧ r.frameError = 0 ∧ r.overrun = 0 ∧ r.stray = 0
    ∧ Claim.reset = ⟨none, .both⟩
    ∧ State.reset.perf = Performance.reset 40 .normal ∧ State.reset.power = ⟨.running, none, .powerOn, false⟩
    ∧ State.reset.map = factoryMap ∧ State.reset.claim = Claim.reset
    ∧ State.reset.store.bootChoice = 0 ∧ State.reset.store.active = 0 ∧ State.reset.store.bootFallback = false
    ∧ State.reset.store.commit = none
    ∧ (∀ n : Fin 4, State.reset.store.profiles[n] = ⟨factoryMap, true, if n = 0 then .fixed else .open_⟩)
    ∧ State.reset.linkA = LinkRecord.reset true ∧ State.reset.linkB = LinkRecord.reset true
    ∧ State.reset.pins = ⟨false, false, false, false, false⟩
    ∧ State.reset.pending = []

/-! ### The links -/

/-- The samples of a character (R188): a clean one gives its data value and its mark; three samples of a bit time that are not alike
make it NOISY, a low majority at the stop bit a framing error, and a high majority at the start bit no character. The line that the part
drives for a message (Sections 10.7.1 to 10.7.3): a break of 12 bit times, 2 bit times high, then the characters of its frame back to
back, each a low start bit, its data bits from the least significant, its mark, which is 1 for the header alone, and a high stop bit. The
frame is a header, a length, a body and a check that brings the sum to a multiple of 256. -/
def Obligations.CharacterSamples : Prop :=
  (∀ data mark, receivedOf (cleanCharacter data mark) = some (.clean data mark))
    ∧ (∀ samples : BitVec 33,
      let high (i : Nat) : Nat := (samples.getLsbD (3 * i)).toNat + (samples.getLsbD (3 * i + 1)).toNat
        + (samples.getLsbD (3 * i + 2)).toNat
      let isNoisy : Prop := ∃ i, i < 11 ∧ (high i = 1 ∨ high i = 2)
      (2 ≤ high 0 → receivedOf samples = none)
      ∧ (high 0 < 2 → isNoisy → 2 ≤ high 10 → receivedOf samples = some (.spoilt .noise))
      ∧ (high 0 < 2 → ¬ isNoisy → high 10 < 2 → receivedOf samples = some (.spoilt .framing))
      ∧ (high 0 < 2 → ¬ isNoisy → 2 ≤ high 10 →
          ∃ data mark, receivedOf samples = some (.clean data mark) ∧ mark = decide (2 ≤ high 9)
            ∧ ∀ i, i < 8 → data.getLsbD i = decide (2 ≤ high (i + 1))))
    ∧ (∀ t : Transmission, ∃ header rest, t.frame = header :: rest
        ∧ t.bits = List.replicate 12 false ++ [true, true] ++ characterBits header true
          ++ rest.flatMap fun data => characterBits data false)
    ∧ (∀ data mark, characterBits data mark
        = [false, data.getLsbD 0, data.getLsbD 1, data.getLsbD 2, data.getLsbD 3, data.getLsbD 4, data.getLsbD 5,
          data.getLsbD 6, data.getLsbD 7, mark, true])
    ∧ ∀ (kind : Byte) (result : Result) (reason : DiscardReason) (data : List Byte) (flag : Bool) (kinds : Notices),
      let frame (header : Byte) (body : List Byte) (t : Transmission) : Prop :=
        ∃ check : Byte, t.frame = header :: BitVec.ofNat 8 body.length :: body ++ [check]
          ∧ (t.frame.map BitVec.toNat).sum % 256 = 0
      let results : List Result := [.ok, .accepted, .notHolder, .heldByOther, .alreadyHolder, .wrongPhase, .notAdmitted,
        .badState, .outOfRange, .queueFull, .clockStopped, .storeBusy, .protected_, .profileDamaged, .supplyCritical,
        .unknownRequest]
      let reasons : List DiscardReason := [.noise, .framing, .mark, .truncated, .check, .badLength]
      let overrun : Byte := if flag then 1 else 0
      frame 160 (kind :: BitVec.ofNat 8 (codeIn results result) :: overrun :: data)
          (.message (.response kind result data) flag)
        ∧ frame 161 [kind, BitVec.ofNat 8 (codeIn reasons reason + 1), overrun] (.message (.frameError kind reason) flag)
        ∧ frame 162 [BitVec.ofNat 8 kinds.toNat, BitVec.ofNat 8 (kinds.toNat / 256)] (.notice kinds)

/-- The table of the receiver (R191): CHARACTER on a link that receives takes the record of the link where the receiver's state and the
character lead, the line high; that a high stop bit arms the break is log 24, the model's choice. One that is no character, or comes on
a link that does not receive, changes nothing. -/
def Obligations.ReceiverTable : Prop :=
  ∀ (l : Link) (samples : BitVec 33) (s : State),
    (s.receives l = false ∨ receivedOf samples = none → exec (.character l samples) s = .next s)
    ∧ ∀ c, s.receives l = true → receivedOf samples = some c →
      let r : LinkRecord := { s.link l with
        lineHigh := true
        breakArmed := (s.link l).breakArmed || majority samples 10 }
      let becomes (r' : LinkRecord) : Prop := exec (.character l samples) s = .next (setLink l r' s)
      (r.receiver = .waitBreak → becomes { r with stray := r.stray + 1 })
      ∧ (∀ reason, c = .spoilt reason → r.receiver ≠ .waitBreak →
          becomes (discarded reason r.receiver.kind .waitBreak r))
      ∧ (∀ data, c = .clean data true → r.receiver = .awaitHeader →
          becomes { r with receiver := .awaitLength data data })
      ∧ (∀ data, c = .clean data true → r.receiver ≠ .waitBreak → r.receiver ≠ .awaitHeader →
          becomes (discarded .mark r.receiver.kind .waitBreak r))
      ∧ (∀ data, c = .clean data false →
          (r.receiver = .awaitHeader → becomes (discarded .mark 0 .waitBreak r))
          ∧ (∀ kind sum, r.receiver = .awaitLength kind sum →
              (data = 0 → becomes { r with receiver := .awaitCheck kind 0 [] sum })
              ∧ (1 ≤ data.toNat → data.toNat ≤ 250 →
                  becomes { r with receiver := .body kind data [] (sum + data) })
              ∧ (250 < data.toNat → becomes (discarded .badLength kind .waitBreak r)))
          ∧ (∀ kind n got sum, r.receiver = .body kind n got sum →
              becomes { r with receiver :=
                if got.length + 1 < n.toNat then .body kind n (got ++ [data]) (sum + data)
                else .awaitCheck kind n (got ++ [data]) (sum + data) })
          ∧ (∀ kind n got sum, r.receiver = .awaitCheck kind n got sum →
              (sum + data ≠ 0 → becomes (discarded .check kind .waitBreak r))
              ∧ (sum + data = 0 → requestOf l kind got = none →
                  becomes (discarded .badLength kind .waitBreak r))
              ∧ (∀ q, sum + data = 0 → requestOf l kind got = some q →
                  becomes { offer (.request q) r with receiver := .waitBreak })))

/-- BREAK, BREAK_REARM and IDLE_TRUNCATION (R189, R191, R205): an armed break on a link of a running part opens a message, and first cuts
the one in reception; in standby it wakes the part, and in stabilisation it is not taken; one that is not armed opens nothing. A line high
for 20 character times cuts the message in reception, and arms the break (log 24, the model's choice). -/
def Obligations.BreaksOpen : Prop :=
  ∀ (l : Link) (s : State),
    let r := s.link l
    let low : LinkRecord := { r with breakArmed := false, lineHigh := false }
    (s.receives l = true → r.breakArmed = true →
      (r.receiver = .waitBreak →
        exec (.breakDetected l) s = .next (setLink l { low with receiver := .awaitHeader } s))
      ∧ (r.receiver ≠ .waitBreak →
          exec (.breakDetected l) s
            = .next (setLink l (discarded .truncated r.receiver.kind .awaitHeader low) s)))
    ∧ (r.up = true → r.breakArmed = true → s.power.state = .standby →
        exec (.breakDetected l) s = .next (setLink l low { s with
          power := { s.power with state := .waking, wakeEnd := some (s.perf.now + 8000) } }))
    ∧ (r.up = true → r.breakArmed = true → s.power.state = .waking →
        exec (.breakDetected l) s = .next (setLink l { r with lineHigh := false } s))
    ∧ (r.up = false ∨ r.breakArmed = false →
        exec (.breakDetected l) s = .next (setLink l { r with lineHigh := false } s))
    ∧ exec (.breakRearm l) s = .next (setLink l { r with breakArmed := true, lineHigh := true } s)
    ∧ (s.receives l = true → r.receiver ≠ .waitBreak →
        exec (.idleTruncation l) s = .next (setLink l
          { discarded .truncated r.receiver.kind .waitBreak r with breakArmed := true, lineHigh := true } s))
    ∧ (s.receives l = false ∨ r.receiver = .waitBreak → exec (.idleTruncation l) s = .next s)

/-- LINK_DOWN and LINK_UP (R190): a link that goes DOWN loses its slots, its transmissions and its reception, and keeps its mask and
counters; its claim lapses as at a lease end, with CLAIM-LAPSED pending on both links; the other link keeps its record. A response that it
cuts is followed all the same: a STANDBY takes the part to standby at this moment where its conditions hold (R204), and a LINK-RESET is to
be carried out (R206; as a row of its own, log 25, the model's choice). A link that comes UP waits for a break. -/
def Obligations.LinkDownUp : Prop :=
  ∀ (l : Link) (s : State),
    let r := s.link l
    let follows := r.due ++ r.slots.filterMap Slot.after
    let down : LinkRecord := { r with
      up := false
      rate := .r500k
      receiver := .waitBreak
      breakArmed := true
      slots := []
      transmitQueue := []
      sending := none
      overrunFlag := false
      lineHigh := false
      due := follows.filter fun a => decide (a = .linkReset) }
    let gone (t : State) : Prop :=
      (s.holds l = false → t = setLink l down s)
      ∧ (s.holds l = true → ∃ p,
          t = { setLink l down s with perf := p, claim := { s.claim with held := none } }
            ∧ p.instrument.noticesA &&& noticeBit .claimLapsed = noticeBit .claimLapsed
            ∧ p.instrument.noticesB &&& noticeBit .claimLapsed = noticeBit .claimLapsed
            ∧ (s.perf.session.state.inPlay = true →
                p.session.state = .paused ∧ p.session.pauseCause = .lapse)
            ∧ (s.perf.session.state = .free → p.session.state = .idle ∧ p.queue.entries = []))
    let enters (t : State) : Prop :=
      AfterAction.standby ∈ follows ∧ t.power.state = .running ∧ t.quiet = true ∧ t.store.commit = none
    (r.up = true → ∃ t, gone t
      ∧ (¬ enters t → exec (.linkDown l) s = .next t)
      ∧ (enters t → exec (.linkDown l) s = .next { t with
          linkA := { t.linkA with receiver := .waitBreak }
          linkB := { t.linkB with receiver := .waitBreak }
          power := if t.pins.serviceLine
            then { t.power with state := .waking, wakeEnd := some (t.perf.now + 8000) }
            else { t.power with state := .standby } }))
    ∧ (r.up = false → exec (.linkDown l) s = .next s)
    ∧ (r.up = false → s.power.state ≠ .held →
        exec (.linkUp l) s
          = .next (setLink l { r with up := true, receiver := .waitBreak, lineHigh := true } s))
    ∧ (r.up = true → exec (.linkUp l) s = .next s)

/-- DISCARD_RECORD, MESSAGE_SENT, LINK_RATE_CHANGE and NOTICE (R193, R194, R196, R198): the next held discard record is answered with a
FRAME-ERROR message; the end of a response frees its slot and lets the next message begin, unless an action follows it (that the next waits
for that action is log 25, the model's choice); the rate changes as the response of its request ends, a message in reception being cut, and
the next message then begins; a notice carries the pending kinds that the mask lets through, which leave the pending set. -/
def Obligations.MessagesGo : Prop :=
  ∀ (l : Link) (s : State), s.receives l = true →
    let r := s.link l
    (∀ reason kind, nextItem r.slots = some (.discard reason kind) →
      exec (.discardRecord l) s = .next (setLink l (answer (.frameError kind reason) none r) s))
    ∧ (∀ m flag x rest, r.sending = some (.message m flag) → r.slots = x :: rest → x.answered = true → r.due = [] →
        (x.after = none → r.transmitQueue = [] →
          exec (.messageSent l) s = .next (setLink l { r with sending := none, slots := rest } s))
        ∧ (∀ next queue, x.after = none → r.transmitQueue = next :: queue →
            exec (.messageSent l) s = .next (setLink l { r with
              slots := rest
              transmitQueue := queue
              sending := some (.message next r.overrunFlag)
              overrunFlag := false } s))
        ∧ (∀ a, x.after = some a →
            exec (.messageSent l) s
              = .next (setLink l { r with sending := none, slots := rest, due := [a] } s)))
    ∧ (∀ kinds, r.sending = some (.notice kinds) → r.transmitQueue = [] →
        exec (.messageSent l) s = .next (setLink l { r with sending := none } s))
    ∧ (∀ rate, r.due = [.rate rate] →
        let cut := if r.receiver = .waitBreak then r else discarded .truncated r.receiver.kind .waitBreak r
        let changed : LinkRecord := { cut with due := [], rate := rate, breakArmed := true }
        (r.transmitQueue = [] → exec (.linkRateChange l) s = .next (setLink l changed s))
        ∧ (∀ next queue, r.sending = none → r.transmitQueue = next :: queue →
            exec (.linkRateChange l) s = .next (setLink l { changed with
              transmitQueue := queue
              sending := some (.message next changed.overrunFlag)
              overrunFlag := false } s)))
    ∧ (let kinds := pendingNotices l s.perf.instrument &&& r.mask
       r.sending = none → r.transmitQueue = [] → r.due = [] → kinds ≠ 0 →
        ∃ i, exec (.notice l) s = .next (setLink l { r with sending := some (.notice kinds) }
              { s with perf := { s.perf with instrument := i } })
          ∧ pendingNotices l i = pendingNotices l s.perf.instrument &&& ~~~r.mask
          ∧ pendingNotices l.other i = pendingNotices l.other s.perf.instrument
          ∧ i = { s.perf.instrument with noticesA := i.noticesA, noticesB := i.noticesB })

/-- A request survives its message (Section 10.7.3): the kind and the body of every well-formed request read back as that request. An
unknown request is one whose kind names none. -/
def Obligations.RequestRoundTrip : Prop :=
  ∀ (c : Instr) (l : Link), requestLink c = some l → c.wellFormed = true →
    requestOf l (requestKind c) (requestBody c) = some c ∧ (requestBody c).length ≤ 250

/-- A request survives its link (R191, R192, R200, Section 10.7.2): the characters of the frame of a well-formed request, taken one by one
by a receiver that a break has opened, offer that request to the slots and leave the receiver waiting for a break; nothing else of
the record changes. -/
def Obligations.FramesReceived : Prop :=
  ∀ (c : Instr) (l : Link) (r : LinkRecord), requestLink c = some l → c.wellFormed = true →
    r.receiver = .awaitHeader →
    takeFrame l (frameOf (requestKind c) (requestBody c)) r
      = { offer (.request c) r with receiver := .waitBreak }

/-! ### Pins that act on the performance -/

/-- ROLL_PRESENT_CHANGE and MONITOR_LEVEL_CHANGE (R23, R24, R138, R146 to R148) on a part that runs. A SENSOR roll removed in a session
in progress faults it with ROLL-REMOVED, and one removed in REWINDING ends the rewind. A monitor level that stays changes nothing
but the pins; NORMAL and LOW run a grant pass, LOW with SUPPLY-LOW pending; CRITICAL turns off and frees everything, raises FAULT alone,
and pauses a session in play. Its losses are counted (R112, R134): CUT for each key with a holder, DROPPED for each strike that waits,
DISCARDED for every other armed and every pending strike, PEDAL-DROPPED for each pedal that waits. The keys go before the pedals: log 10,
the model's choice. -/
def Obligations.PinChanges : Prop :=
  ∀ s : State, s.running = true →
    exec (.rollPresentChange true) s = .next { s with pins := { s.pins with rollPresent := true } }
    ∧ (∃ p, exec (.rollPresentChange false) s
          = .next { s with pins := { s.pins with rollPresent := false }, perf := p }
        ∧ (s.perf.session.source = .sensor → s.perf.session.state.inProgress = true →
            p.session.state = .faulted ∧ p.session.faultCause = .rollRemoved ∧ p.session.stepTimer = none
              ∧ p.session.rollRemoved = s.perf.session.rollRemoved + 1
              ∧ p.session.pauseCause = .none ∧ p.session.endingStart = none ∧ p.session.resumeTarget = none
              ∧ p.queue = s.perf.queue ∧ p.detector = s.perf.detector
              ∧ p.instrument.noticesA &&& noticeBit .fault = noticeBit .fault
              ∧ p.instrument.noticesB &&& noticeBit .fault = noticeBit .fault)
        ∧ (s.perf.session.state = .rewinding →
            p.session.state = .idle ∧ p.session.rewindCount = 0
              ∧ p.session.rollRemoved = s.perf.session.rollRemoved + 1
              ∧ p.instrument = s.perf.instrument ∧ p.queue = s.perf.queue))
    ∧ ∀ low critical,
      let s' : State := { s with pins := { s.pins with lowIndication := low, criticalIndication := critical } }
      let level : MonitorLevel := if critical then .critical else if low then .low else .normal
      let i := s.perf.instrument
      let count (test : KeyRecord → Bool) : Counter :=
        BitVec.ofNat 32 (allKeys.filter fun k => test i.keys[k]).length
      (level = s.perf.instrument.monitor → exec (.monitorLevelChange low critical) s = .next s')
      ∧ (level = .normal → s.perf.instrument.monitor ≠ .normal →
          exec (.monitorLevelChange low critical) s = .next (settled s'
            { s.perf with instrument := pass s.moment { s.perf.instrument with monitor := .normal } }))
      ∧ (level = .low → s.perf.instrument.monitor ≠ .low →
          exec (.monitorLevelChange low critical) s = .next (settled s' { s.perf with
            instrument := pass s.moment { s.perf.instrument with
              monitor := .low
              noticesA := s.perf.instrument.noticesA ||| 0x400
              noticesB := s.perf.instrument.noticesB ||| 0x400 } }))
      ∧ (level = .critical → s.perf.instrument.monitor ≠ .critical →
          ∃ p, exec (.monitorLevelChange low critical) s = .next { s' with perf := p }
            ∧ p.instrument.monitor = .critical ∧ p.instrument.unitsInUse = 0 ∧ p.instrument.waitList = []
            ∧ p.instrument.damperDown = false
            ∧ (∀ k : Key,
                let r := i.keys[k]
                let on := r.state = .drive ∨ r.state = .hold
                p.instrument.keys[k] = { r with
                  state := if on ∨ r.state = .returning ∨ (r.state = .shed ∧ r.returnEnd.isSome = true)
                    then .returning else .rest
                  holders := ⟨false, false, false⟩
                  armed := none
                  pending := none
                  driveEnd := none
                  holdStart := none
                  requestMoment := none
                  returnEnd := if on then some (s.perf.now + s.map.keys[k].returnTime * 100) else r.returnEnd
                  channel := if on then r.channel.switch s.perf.now .off else r.channel })
            ∧ (∀ d : PedalName,
                let x := p.instrument.pedal d
                (x.state = .up ∨ x.state = .goingUp) ∧ x.holders.isEmpty = true ∧ x.requestMoment = none
                  ∧ ((s.perf.instrument.pedal d).state ≠ .up → x.assistEnd = none)
                  ∧ x.bridge = ⟨.off, .off, s.perf.now⟩)
            ∧ p.instrument.cut = i.cut + count (fun r => !r.holders.isEmpty)
            ∧ p.instrument.dropped = i.dropped + count (fun r => r.armed.isSome && decide (r.state = .wait))
            ∧ p.instrument.discarded = i.discarded
              + count (fun r => r.armed.isSome && decide (r.state ≠ .wait)) + count (fun r => r.pending.isSome)
            ∧ p.instrument.pedalDropped = i.pedalDropped
              + (if i.damper.requestMoment.isSome then 1 else 0) + (if i.shift.requestMoment.isSome then 1 else 0)
            ∧ p.instrument.noticesA = i.noticesA ||| 0x080 ∧ p.instrument.noticesB = i.noticesB ||| 0x080
            ∧ p.instrument.accepted = i.accepted ∧ p.instrument.fired = i.fired ∧ p.instrument.merged = i.merged
            ∧ (s.perf.session.state.inPlay = true →
                p.session.state = .paused ∧ p.session.pauseCause = .supply))

/-! ### Roll events -/

/-- SCAN_IMAGE and LINE_TIMER_EXPIRY (R14, R15): an image with no step outstanding is a stray, and is counted, in standby and stabilisation
too (log 18, the model's choice); one that answers a step joins the buffer and ends the step, and a session that does not wait for it
does nothing more; in STARVED with source SENSOR it ends the starvation (R12): the entries that are due launch first (log 20, the model's
choice), then the oldest line is consumed at the standing PT, its events are queued, timed from that PT and its position (R52, R54), and a
new interval begins with the next frame index. A step whose image does not come within its 20 ms faults the session. -/
def Obligations.ScanImages : Prop :=
  ∀ (samples : SensorLine) (s : State),
    let x := s.perf.session
    let got := if x.stepTimer.isSome then x.sensorBuffer ++ [samples] else x.sensorBuffer
    let waits := got ≠ [] ∧
      ((x.state = .starved ∧ x.source = .sensor) ∨ (x.state = .preparing ∧ x.awaitingImage = true))
    (s.running = true →
      (¬ waits → x.stepTimer = none →
        exec (.scanImage samples) s = .next (settled s
          { s.perf with session := { x with scanStray := x.scanStray + 1 } }))
      ∧ (¬ waits → x.stepTimer.isSome = true →
          exec (.scanImage samples) s = .next (settled s { s.perf with
            session := { x with sensorBuffer := x.sensorBuffer ++ [samples], stepTimer := none } }))
      ∧ (∀ line rest, x.state = .starved → x.source = .sensor → got = line :: rest →
          ∃ p, exec (.scanImage samples) s = .next { s with perf := p }
            ∧ p.session.state ≠ .starved ∧ (p.session.state.clockRuns = false ∨ noneDue p)
            ∧ (noneDue s.perf →
                resumesWith s (s.perf.detector.sensorLine s.map x.rollPosition line) p
                  ∧ (p.session.state = .playing → p.session.sensorBuffer = rest)
                  ∧ (24 ≤ p.detector.badRun ↔ p.session.state = .faulted)
                  ∧ (p.session.state = .faulted → p.session.faultCause = .trackLost ∧ p.queue = s.perf.queue)))
      ∧ (∀ t, x.stepTimer = some t → s.perf.now ≤ t →
          ∃ p, exec .lineTimerExpiry s = .next { s with perf := p }
            ∧ p.now = t ∧ p.session.state = .faulted ∧ p.session.faultCause = .sensorFault
            ∧ p.session.stepTimer = none ∧ p.session.intervalEnd = none ∧ p.session.pauseCause = .none
            ∧ p.session.sensorBuffer = x.sensorBuffer ∧ p.session.rewindCount = x.rewindCount
            ∧ p.session.pt = (advanceTo t s.perf).session.pt
            ∧ p.queue = s.perf.queue ∧ p.detector = s.perf.detector ∧ p.expression = s.perf.expression))
    ∧ (s.power.state = .standby ∨ s.power.state = .waking → x.stepTimer = none →
        exec (.scanImage samples) s = .next { s with
          perf := { s.perf with session := { x with scanStray := x.scanStray + 1 } } })
    ∧ (s.power.state = .held → exec (.scanImage samples) s = .next s)

/-- Threading and SENSOR pre-roll (R6, R7, R32, R33): at the end of an interval, and at the arrival of an image that the pacer waits for,
the oldest line is consumed and the next interval of 2.5 ms begins. In threading the line is edge-tracked, 32 good lines in a row
make it stable, and 4000 lines that do not are THREAD-FAULT. In pre-roll the line takes the roll position, its events become entries timed
from PT 0 at position D - 1 (R52, R54), a lost track faults, and at the sounding distance the session is CUED. With no line the pacer
waits. -/
def Obligations.ThreadingAndPreRoll : Prop :=
  ∀ (c : Instr) (at_ : Nat) (line : SensorLine) (rest : List SensorLine) (s : State), s.running = true →
    let x := s.perf.session
    x.state = .preparing → x.source = .sensor → s.perf.now ≤ at_ →
    let ends := x.intervalEnd = some at_ ∧ ((c = .threadingIntervalEnd ∧ x.threadingStable = false)
      ∨ (c = .preRollIntervalEnd ∧ x.threadingStable = true))
    let arrives := c = .scanImage line ∧ rest = [] ∧ x.sensorBuffer = [] ∧ x.awaitingImage = true
      ∧ x.stepTimer.isSome = true ∧ at_ = s.perf.now
    (ends → x.sensorBuffer = [] →
      exec c s = .next (settled s { s.perf with
        now := at_
        session := { x with intervalEnd := none, awaitingImage := true } }))
    ∧ ((ends ∧ x.sensorBuffer = line :: rest) ∨ arrives →
        ∃ p, exec c s = .next { s with perf := p } ∧ p.now = at_ ∧ p.session.sensorBuffer = rest
          ∧ p.session.pt = x.pt ∧ p.expression = s.perf.expression
          ∧ (x.threadingStable = false →
              let d := s.perf.detector.trackEdges s.map.tracker line
              let stable := decide (32 ≤ d.goodRun)
              p.detector = d ∧ p.queue = s.perf.queue
                ∧ p.session.threadingLines = x.threadingLines + 1
                ∧ p.session.threadingStable = stable
                ∧ p.session.rollPosition = x.rollPosition ∧ p.session.lastPosition = x.lastPosition
                ∧ (stable = true ∨ x.threadingLines + 1 < 4000 →
                    p.session.state = .preparing ∧ p.session.intervalEnd = some (at_ + 2500)
                      ∧ p.session.awaitingImage = false)
                ∧ (stable = false → 4000 ≤ x.threadingLines + 1 →
                    p.session.state = .faulted ∧ p.session.faultCause = .threadFault))
          ∧ (x.threadingStable = true →
              let d := (s.perf.detector.sensorLine s.map x.rollPosition line).1
              let next := min 4194303 (x.rollPosition + 1)
              p.detector = d ∧ p.session.lastPosition = x.rollPosition ∧ p.session.rollPosition = next
                ∧ (d.badRun < 24 → ∃ y : Session, y.state = .preparing ∧ y.pt = x.pt ∧ y.tempo = x.tempo ∧
                    let q := queueEvents s.env ⟨0, s.map.tracker.soundingDistance - 1⟩
                      (s.perf.detector.sensorLine s.map x.rollPosition line).2
                      { s.perf with now := at_, session := y, detector := d }
                    p.queue = q.queue ∧ p.instrument = q.instrument)
                ∧ (24 ≤ d.badRun → p.session.state = .faulted ∧ p.session.faultCause = .trackLost
                    ∧ p.queue = s.perf.queue)
                ∧ (d.badRun < 24 → s.map.tracker.soundingDistance ≤ next →
                    p.session.state = .cued ∧ p.session.intervalEnd = none)
                ∧ (d.badRun < 24 → next < s.map.tracker.soundingDistance →
                    p.session.state = .preparing ∧ p.session.intervalEnd = some (at_ + 2500))))

/-- LINE_INTERVAL_END (R10, R11, R12, R21, R33, R45): the oldest line of the source's buffer is consumed at the roll position, which
advances, and its events become entries timed from the PT of the interval end and the line's position (R52, R54); while the session plays
on, the next interval of the frame begins, and one of the 32 is longer by one µs while its index is below the fine part of the period; a
lost track faults; the line at the highest position ends the roll, where it does not fault (log 37, the model's choice). With no line the session is STARVED, and a CLOSED stream that is empty
goes to ENDING with its open holes closed, whose events become entries at the roll position. -/
def Obligations.PlayingLines : Prop :=
  ∀ (t : Nat) (s : State), s.running = true →
    let x := s.perf.session
    x.state = .playing → x.intervalEnd = some t → s.perf.now ≤ t →
    let p0 := advanceTo t s.perf
    let position := x.rollPosition
    let index := (x.frameIndex + 1) % 32
    let began := if x.newFrame then 0 else index
    let consumed (out : Detector × List HoleEvent) (y : Session) (p : Performance) : Prop :=
      exec .lineIntervalEnd s = .next { s with perf := p } ∧ p.now = t ∧ p.session.pt = p0.session.pt
        ∧ (p.session.state = .playing →
            let q := queueEvents s.env ⟨p0.session.pt, position⟩ out.2 { p0 with detector := out.1, session := { y with
              frameIndex := index, lastPosition := position, rollPosition := min 4194303 (position + 1) } }
            p.queue = q.queue ∧ p.instrument = q.instrument ∧ p.expression = q.expression)
        ∧ p.detector = out.1 ∧ p.session.lastPosition = position ∧ p.session.rollPosition = min 4194303 (position + 1)
        ∧ (p.session.state = .playing → p.session.frameIndex = began ∧ p.session.newFrame = false
            ∧ p.session.intervalEnd
              = some (t + (x.tempo / 32 + (if began < x.tempo % 32 then 1 else 0))))
        ∧ (p.session.state = .playing ∨ p.session.state = .ending ∨ p.session.state = .faulted
            ∨ p.session.state = .idle ∨ p.session.state = .rewinding)
        ∧ (position = 4194303 → p.session.state ≠ .playing)
    (∀ line rest, x.source = .stream → x.streamBuffer = line :: rest →
      ∃ p, consumed (s.perf.detector.streamLine s.map position line) { p0.session with streamBuffer := rest } p
        ∧ p.session.state ≠ .faulted
        ∧ (p.session.state = .playing → p.session.streamBuffer = rest))
    ∧ (∀ line rest, x.source = .sensor → x.sensorBuffer = line :: rest →
        ∃ p, consumed (s.perf.detector.sensorLine s.map position line) { p0.session with sensorBuffer := rest } p
          ∧ (p.session.state = .playing → p.session.sensorBuffer = rest)
          ∧ (24 ≤ p.detector.badRun ↔ p.session.state = .faulted)
          ∧ (p.session.state = .faulted → p.session.faultCause = .trackLost ∧ p.queue = s.perf.queue))
    ∧ ((x.source = .sensor ∧ x.sensorBuffer = []) ∨ (x.source = .stream ∧ x.streamBuffer = [] ∧ x.streamOpen = true) →
        exec .lineIntervalEnd s = .next (settled s { p0 with
          session := { p0.session with state := .starved, intervalEnd := none, frameIndex := index }
          instrument := raiseBoth .starved s.perf.instrument }))
    ∧ (x.source = .stream → x.streamBuffer = [] → x.streamOpen = false →
        ∃ p, exec .lineIntervalEnd s = .next { s with perf := p }
          ∧ (p.session.state = .ending ∨ p.session.state = .idle)
          ∧ (p.session.state = .ending → p.session.endingStart = some p0.session.pt)
          ∧ (∀ k : Track, p.detector.holes[k] = .closed)
          ∧ (let out := s.perf.detector.closeHoles s.map position
             let q := queueEvents s.env ⟨p0.session.pt, position⟩ out.2 { p0 with detector := out.1, session := { p0.session with
               state := .ending
               frameIndex := index
               intervalEnd := none
               awaitingImage := false
               stepTimer := none
               endingStart := some p0.session.pt } }
             noneDue q → rollIsDone q = false → p = q))

/-- REVERSE_STEP and ENDING_LIMIT (R22, R23, R67): a reverse step gives one pulse and leaves one fewer, the next 125 µs later, and the last
leaves the session IDLE. At 40,000 of PT past the ending start, or at the highest PT where that lies beyond it, a roll still sounding is
cut off: each key that it holds counts CUT, with notice CUT on both links where there is one (R111); the pause effects follow, which
PausePauses states; every queued entry is discarded, each STRIKE counting DISCARDED; and the completion follows, with the pause effects of
its stop and notice ROLL-END. -/
def Obligations.RollEnds : Prop :=
  ∀ (t : Nat) (s : State), s.running = true →
    let x := s.perf.session
    (x.state = .rewinding → x.reverseStepAt = some t → s.perf.now ≤ t →
      exec .reverseStep s = .next { s with perf := { s.perf with
        now := t
        session := { x with
          state := if x.rewindCount ≤ 1 then .idle else .rewinding
          direction := .reverse
          stepPulses := x.stepPulses + 1
          rewindCount := x.rewindCount - 1
          reverseStepAt := if x.rewindCount ≤ 1 then none else some (t + 125) } } })
    ∧ (∀ start, x.state = .ending → x.endingStart = some start → x.pt ≤ 4294967295 → x.ptFraction < 100 →
        let i := s.perf.instrument
        let rolled := allKeys.filter fun k => i.keys[k].holders.roll
        let cut : Instrument := { i with
          cut := i.cut + BitVec.ofNat 32 rolled.length
          noticesA := if rolled = [] then i.noticesA else i.noticesA ||| 0x008
          noticesB := if rolled = [] then i.noticesB else i.noticesB ||| 0x008 }
        ∃ (p : Performance) (dt : Nat), exec .endingLimit s = .next { s with perf := p }
          ∧ p.session.pt = max x.pt (min 4294967295 (start + 40000))
          ∧ p.now = s.perf.now + dt ∧ (advance dt s.perf).session.pt = p.session.pt
          ∧ (let m := (advance dt s.perf).moment s.env
             let paused := pauseInstrument m cut
             let stopped := pauseInstrument m
               { paused with discarded := paused.discarded + BitVec.ofNat 32 s.perf.queue.strikes }
             p.instrument = { stopped with
               noticesA := stopped.noticesA ||| 0x020
               noticesB := stopped.noticesB ||| 0x020 })
          ∧ (p.session.state = .idle ∨ p.session.state = .rewinding)
          ∧ p.queue.entries = [] ∧ p.session.endingStart = none
          ∧ (∀ k : Key, (p.instrument.keys[k]).hasRoll = false)
          ∧ p.instrument.noticesA &&& noticeBit .rollEnd = noticeBit .rollEnd
          ∧ p.instrument.noticesB &&& noticeBit .rollEnd = noticeBit .rollEnd)

/-! ### Launches and expression -/

/-- ENTRY_LAUNCH (R59, R60, R66, R74): as PT reaches the least launch time of the queue, the first entry in queue order that is due
leaves it and goes to its owner: a strike arrives at its key, a release and a pedal action act for their source, an expression entry
sets its half's flag, a section mark is a notice, and an END discards what R66 names and ends a roll in PLAYING. -/
def Obligations.Launches : Prop :=
  ∀ (least : Nat) (s : State), s.running = true → s.perf.session.state.clockRuns = true →
    leastLaunch s.perf.queue = some least → least ≤ 4294967295 → s.perf.session.ptFraction < 100 →
    s.perf.session.pt ≤ 4294967295 →
    ∃ (before after : List Entry) (x : Entry) (p : Performance),
      let owner (f : Moment → Instrument → Instrument) : Prop :=
        handOver s.env x p = { p with instrument := f (p.moment s.env) p.instrument }
      s.perf.queue.entries = before ++ x :: after
        ∧ (∀ y ∈ before, p.session.pt < y.launch) ∧ x.launch ≤ p.session.pt
        ∧ p.session.pt = max s.perf.session.pt least
        ∧ onlyTime p { s.perf with queue := { s.perf.queue with entries := before ++ after } }
        ∧ exec .entryLaunch s = .next (settled s (handOver s.env x p))
        ∧ (∀ k accented mode hold, x.action = .strike k accented mode hold →
            owner (arrive p.expression k ⟨x.origin, some x.sounding, accented, mode⟩))
        ∧ (∀ k, x.action = .release k → owner (release k x.origin))
        ∧ (∀ d, x.action = .pedalDown d → owner (pedalDown d x.origin))
        ∧ (∀ d, x.action = .pedalUp d → owner (pedalUp d x.origin))
        ∧ (∀ kind, x.action = .expression kind .bass → handOver s.env x p = { p with
            expression := { p.expression with bass := p.expression.bass.apply kind } })
        ∧ (∀ kind, x.action = .expression kind .treble → handOver s.env x p = { p with
            expression := { p.expression with treble := p.expression.treble.apply kind } })
        ∧ (x.action = .sectionMark → owner (fun _ => raiseBoth .sectionMark))
        ∧ (x.action = .endMark →
            (handOver s.env x p).queue.entries
                = (before ++ after).filter (fun y => !y.discardedByEnd)
              ∧ (p.session.state = .playing → (handOver s.env x p).session.state = .ending
                  ∧ (handOver s.env x p).session.endingStart = some p.session.pt)
              ∧ (p.session.state ≠ .playing → (handOver s.env x p).session = p.session))

/-- The flags of a half (R74): each sub-kind sets, clears or turns its own flag of its own half, and nothing else; a step (R75 to R77)
keeps the level of a frozen half, raises one in crescendo by the rates that are open, up to 255, and moves any other toward its
target by the decay rate down or the slow rate up, not past it. EXPRESSION_STEP: as PT reaches the next multiple of
the step period, both halves take one step and nothing else changes; while the clock stands short of it none is taken. That this is the first multiple past the last step and not below
PT, or PT itself where a step is owed there from before a change of the period, is log 22, the model's choice. -/
def Obligations.HalvesShadeAndStep : Prop :=
  ((∀ h : Half,
    h.apply .slowOn = { h with slowOpen := true } ∧ h.apply .slowOff = { h with slowOpen := false }
      ∧ h.apply .fastOn = { h with fastOpen := true } ∧ h.apply .fastOff = { h with fastOpen := false }
      ∧ h.apply .freezeOn = { h with frozen := true } ∧ h.apply .freezeOff = { h with frozen := false }
      ∧ h.apply .hookToggle = { h with hooked := !h.hooked })
    ∧ (∀ (x : Expression) (kind : ExpressionKind),
        x.onHalf .bass (fun h => h.apply kind) = { x with bass := x.bass.apply kind }
          ∧ x.onHalf .treble (fun h => h.apply kind) = { x with treble := x.treble.apply kind })
    ∧ ∀ (h : Half) (e : ExpressionRegulation),
      let rate := (if h.slowOpen then e.slowRate else 0) + (if h.fastOpen then e.fastRate else 0)
      let target := if h.hooked then e.hookLevel else e.restLevel
      let goesTo (level : Nat) : Prop := h.step e = { h with level := level }
      (h.frozen = true → goesTo h.level)
      ∧ (h.frozen = false → 0 < rate → goesTo (min 255 (h.level + rate)))
      ∧ (h.frozen = false → rate = 0 → target < h.level → goesTo (max target (h.level - e.decayRate)))
      ∧ (h.frozen = false → rate = 0 → h.level ≤ target → goesTo (min target (h.level + e.slowRate))))
    ∧ (∀ s : State, s.running = true → s.perf.session.ptFraction < 100 → 0 < s.map.expression.stepPeriod →
    let period := s.map.expression.stepPeriod * 10
    let x := s.perf.expression
    let e := s.map.expression
    let next := nextStep s.map s.perf.session.pt x
    (x.owed = true → next = s.perf.session.pt)
      ∧ (x.owed = false → next % period = 0 ∧ x.lastStep < next ∧ s.perf.session.pt ≤ next
          ∧ ∀ n, n % period = 0 → x.lastStep < n → s.perf.session.pt ≤ n → next ≤ n)
      ∧ (s.perf.session.state.clockRuns = false → s.perf.session.pt < next →
          exec .expressionStep s = .next (settled s s.perf))
      ∧ (s.perf.session.state.clockRuns = true ∨ next = s.perf.session.pt → next ≤ 4294967295 → ∃ p : Performance,
          exec .expressionStep s = .next (settled s { p with
            expression := { x with bass := x.bass.step e, treble := x.treble.step e, lastStep := next, owed := false } })
          ∧ p.session.pt = next ∧ onlyTime p s.perf))

/-! ### Keys -/

/-- The strike that arrives at a key (R80 to R82, R87 to R89): its velocity is the fixed one, or the level of the key's half with the
accent added up to 255, scaled by the trim; its band, its duty and, for a queued strike, its fire time follow from the map, with the
shift offset when the shift pedal stands at half or more. Its arrival (R87, R91 to R95): at a disabled key it is discarded and counted;
else its source joins the holder set, and by the key's state it is armed, merges within 5 ms of PT, waits as the pending strike, merges
into that, or re-strikes a key in HOLD. A merge (R90) takes the larger velocity with its band and duty, those at the key where the two are
equal, all contributors, and the accent of either, with the earlier fire time in ARMED and the pending one's where it is pending. A key in ARMED whose fire time has not come asks for nothing; one whose fire time is at or before
PT, as of every strike NOW at a key in REST, asks for 3 units at once: it joins the wait list with its drop moment, and a grant pass runs
(R95, R139). -/
def Obligations.StrikesFormAndArrive : Prop :=
  (∀ (m : Moment) (x : Expression) (k : Key) (a : Arrival) (i : Instrument),
    let st := newStrike m x k a i
    let r := m.map.keys[k]
    let half := if k.val + 1 ≤ m.map.expression.splitKey then x.bass else x.treble
    let raw := match a.mode with
      | .fixed v => v
      | .expression => if a.accented then min 255 (half.level + m.map.expression.accentAdd) else half.level
    st.velocity = raw * (8 + x.trim) / 15
      ∧ st.band = st.velocity / 64
      ∧ st.duty = r.dutyMinimum + (r.dutyMaximum - r.dutyMinimum) * st.velocity / 255
      ∧ st.accented = a.accented
      ∧ (∀ o, st.contributors.has o = decide (o = a.origin))
      ∧ (a.sounding = none → st.fire = m.pt)
      ∧ (∀ t, a.sounding = some t → st.fire = t
          - ((if st.band = 0 then r.latency0 else if st.band = 1 then r.latency1
              else if st.band = 2 then r.latency2 else r.latency3)
            + (if 500 ≤ i.shift.position m.now then r.shiftOffset else 0))))
    ∧ (∀ (old st : Strike) (fire : Nat),
    let x := old.merge st fire
    x.fire = fire ∧ x.accented = (old.accented || st.accented)
      ∧ (∀ o, x.contributors.has o = (old.contributors.has o || st.contributors.has o))
      ∧ (old.velocity < st.velocity → x.velocity = st.velocity ∧ x.band = st.band ∧ x.duty = st.duty)
      ∧ (st.velocity ≤ old.velocity → x.velocity = old.velocity ∧ x.band = old.band ∧ x.duty = old.duty))
    ∧ (∀ (m : Moment) (x : Expression) (k : Key) (a : Arrival) (i : Instrument),
    let st := newStrike m x k a i
    let r := { i.keys[k] with holders := i.keys[k].holders.insert a.origin }
    let after := arrive x k a m i
    let stands (i' : Instrument) (r' : KeyRecord) : Prop := after = { i' with keys := i.keys.set k r' }
    let pends (becomes : Instrument → KeyRecord → Prop) : Prop :=
      (r.pending = none → becomes i { r with pending := some st })
      ∧ (∀ old, r.pending = some old →
          becomes { i with merged := i.merged + 1 } { r with pending := some (old.merge st old.fire) })
    let inArmed (fire : Nat) (i' : Instrument) (r' : KeyRecord) : Prop :=
      (m.pt < fire → stands i' r')
      ∧ (fire ≤ m.pt → after = pass m { i' with
          waitList := insertWait ⟨.key k, m.now, m.now + m.map.supply.lateLimit * 1000⟩ i.waitList
          keys := i.keys.set k { r' with state := .wait, requestMoment := some m.now } })
    (m.map.keys[k].enabled = false → after = { i with discarded := i.discarded + 1 })
    ∧ (m.map.keys[k].enabled = true →
        (r.state = .rest ∨ (r.state = .shed ∧ r.returnEnd = none) →
          inArmed st.fire i { r with state := .armed, armed := some st, holdStart := none })
        ∧ (∀ old, r.state = .armed → r.armed = some old →
            (old.fire ≤ st.fire + 50 ∧ st.fire ≤ old.fire + 50 →
              inArmed (min old.fire st.fire) { i with merged := i.merged + 1 }
                { r with armed := some (old.merge st (min old.fire st.fire)) })
            ∧ (old.fire > st.fire + 50 ∨ st.fire > old.fire + 50 → pends (inArmed old.fire)))
        ∧ (r.state = .wait ∨ r.state = .drive ∨ r.state = .returning
              ∨ (r.state = .shed ∧ r.returnEnd.isSome = true) → pends stands)
        ∧ (r.state = .hold →
            after = pass m { i with
              unitsInUse := i.unitsInUse - 1
              keys := i.keys.set k { r with
                state := .returning
                holdStart := none
                pending := some st
                returnEnd := some (m.now + m.map.keys[k].returnTime * 100)
                channel := r.channel.switch m.now .off } })))

/-- FIRE_REQUEST and the grant (R95, R96, R99, R139, R141): as PT reaches the fire time of a key in ARMED, the key asks for 3 units: it
joins the wait list with its request moment and its drop moment, and a grant pass runs. Where nothing waits and 3 units fit, it is
granted at once: it drives for its drive length at the strike's duty, FIRED counts, and 3 units are in use. Where nothing waits, units do
not fit and nothing can be shed, it waits. The pulse-width outputs of keys and pedals (R114, R131) run in periods of 50 µs from the reset
on: within a period nothing changes what drives the output, a change acts from the next period on (a change at the first instant of a
period too: log 21, the model's choice), and at CRITICAL the output stops at once; it conducts from the start of each period for its duty
times 50 / 255 µs, rounded down. -/
def Obligations.KeysFire : Prop :=
  (∀ (k : Key) (st : Strike) (s : State), s.running = true → s.perf.session.ptFraction < 100 →
    s.perf.session.pt ≤ 4294967295 →
    let i := s.perf.instrument
    let r := i.keys[k]
    r.state = .armed → r.armed = some st →
    s.perf.session.pt < st.fire ∧ s.perf.session.state.clockRuns = true ∧ st.fire ≤ 4294967295
      ∨ st.fire ≤ s.perf.session.pt →
    ∃ p : Performance, p.session.pt = max s.perf.session.pt st.fire ∧ onlyTime p s.perf
      ∧ exec (.fireRequest k) s = .next (settled s { p with instrument := pass (p.moment s.env) { i with
          waitList := insertWait ⟨.key k, p.now, p.now + s.map.supply.lateLimit * 1000⟩ i.waitList
          keys := i.keys.set k { r with state := .wait, requestMoment := some p.now } } })
      ∧ (i.waitList = [] →
        i.unitsInUse + 3 ≤ effectiveCapacity i.monitor s.map.supply.capacity →
          exec (.fireRequest k) s = .next (settled s { p with instrument := { i with
            unitsInUse := i.unitsInUse + 3
            fired := i.fired + 1
            keys := i.keys.set k { r with
              state := .drive
              armed := none
              requestMoment := none
              driveEnd := some (p.now + s.map.keys[k].driveLength * 100)
              channel := r.channel.switch p.now (.forward st.duty) } } }))
      ∧ (i.waitList = [] →
        effectiveCapacity i.monitor s.map.supply.capacity < i.unitsInUse + 3 → i.damperDown = false →
          exec (.fireRequest k) s = .next (settled s { p with instrument := { i with
            waitList := [⟨.key k, p.now, p.now + s.map.supply.lateLimit * 1000⟩]
            keys := i.keys.set k { r with state := .wait, requestMoment := some p.now } } })))
    ∧ ∀ (o : Output) (now t : Nat) (d : Drive),
        (t / 50 = now / 50 → (o.switch now d).driveAt t = o.driveAt now)
        ∧ (now / 50 < t / 50 → (o.switch now d).driveAt t = d)
        ∧ (t / 50 = now / 50 → o.driveAt t = o.driveAt now)
        ∧ (o.stopAtOnce now).driveAt t = .off
        ∧ (∀ duty, o.driveAt t = .forward duty ∨ o.driveAt t = .reverse duty →
            o.conducts t = decide (t % 50 < duty * 50 / 255))
        ∧ (o.driveAt t = .off → o.conducts t = false)

/-- DRIVE_END, RETURN_EXPIRY, DROP_MOMENT and a release (R97, R100, R102, R104, R107, R130, R144). At drive end a held key with nothing
pending holds at its hold duty with 2 units returned, and any other returns with its timer running and 3 units returned. At return expiry
a key rests, or its pending strike is armed, with a fire time not before PT. At the first drop moment the first entry of the list with
that moment leaves it, and a pass follows: a key's strike is lost, DROPPED counts, and its holders are removed; its pending strike is
armed, and asks afresh where its time has come; a pedal that is dropped counts PEDAL-DROPPED, stays where it is and loses its holders. A
release takes its source from the holder set, and is ignored where it is absent; the last to leave lets a key in HOLD return, with 1 unit
returned, and one in SHED return while its timer runs, or rest; it changes no other state. -/
def Obligations.KeysReturn : Prop :=
  (∀ (k : Key) (t : Nat) (s : State), s.running = true → s.perf.now ≤ t →
    let i := s.perf.instrument
    let r := i.keys[k]
    let p := advanceTo t s.perf
    let m := p.moment s.env
    (r.state = .drive → r.driveEnd = some t →
      (r.pending = none → r.holders.isEmpty = false →
        exec (.driveEnd k) s = .next (settled s { p with instrument := pass m { i with
          unitsInUse := i.unitsInUse - 2
          keys := i.keys.set k { r with
            state := .hold
            driveEnd := none
            holdStart := some t
            channel := r.channel.switch t (.forward s.map.keys[k].holdDuty) } } }))
      ∧ (r.pending.isSome = true ∨ r.holders.isEmpty = true →
          exec (.driveEnd k) s = .next (settled s { p with instrument := pass m { i with
            unitsInUse := i.unitsInUse - 3
            keys := i.keys.set k { r with
              state := .returning
              driveEnd := none
              returnEnd := some (t + s.map.keys[k].returnTime * 100)
              channel := r.channel.switch t .off } } })))
    ∧ (r.returnEnd = some t →
        let timed : KeyRecord := { r with returnEnd := none }
        let changes (r' : KeyRecord) : Prop :=
          exec (.returnExpiry k) s = .next (settled s { p with instrument := { i with keys := i.keys.set k r' } })
        (r.state = .returning → r.pending = none → changes { timed with state := .rest, holders := ⟨false, false, false⟩ })
        ∧ (∀ st, r.state = .returning ∨ r.state = .shed → r.pending = some st → p.session.pt < st.fire →
            changes { timed with state := .armed, armed := some st, pending := none, holdStart := none })
        ∧ (∀ st, r.state = .returning ∨ r.state = .shed → r.pending = some st → st.fire ≤ p.session.pt →
            exec (.returnExpiry k) s = .next (settled s { p with instrument := askIfDue m k { i with
              keys := i.keys.set k { timed with
                state := .armed
                armed := some { st with fire := p.session.pt }
                pending := none
                holdStart := none } } }))
        ∧ (r.state = .shed → r.pending = none → changes timed))
    ∧ (∀ e front back, i.waitList = front ++ e :: back → (∀ y ∈ front, t < y.dropMoment) →
        (∀ y ∈ back, t ≤ y.dropMoment) → e.dropMoment = t →
        exec .dropMoment s = .next (settled s { p with instrument := pass m (dropOnly m e i) })))
    ∧ (∀ (m : Moment) (e : WaitEntry) (i : Instrument),
        let left : Instrument := { i with
          waitList := i.waitList.filter fun y => decide (y.requester ≠ e.requester)
          noticesA := i.noticesA ||| 0x004
          noticesB := i.noticesB ||| 0x004 }
        (∀ k : Key, e.requester = .key k →
          let freed : KeyRecord := { i.keys[k] with
            armed := none, requestMoment := none, holders := ⟨false, false, false⟩ }
          let becomes (r' : KeyRecord) : Prop :=
            dropOnly m e i = { left with dropped := i.dropped + 1, keys := i.keys.set k r' }
          (freed.pending = none → becomes { freed with state := .rest })
          ∧ (∀ st, freed.pending = some st → m.pt < st.fire →
              becomes { freed with state := .armed, armed := some st, pending := none, holdStart := none })
          ∧ (∀ st, freed.pending = some st → st.fire ≤ m.pt →
              dropOnly m e i = { left with
                dropped := i.dropped + 1
                waitList := insertWait ⟨.key k, m.now, m.now + m.map.supply.lateLimit * 1000⟩ left.waitList
                keys := i.keys.set k { freed with
                  state := .wait
                  armed := some { st with fire := m.pt }
                  pending := none
                  holdStart := none
                  requestMoment := some m.now } }))
        ∧ (∀ d : PedalName, e.requester = .pedal d →
            dropOnly m e i = setPedal d { i.pedal d with requestMoment := none, holders := ⟨false, false, false⟩ }
              { left with pedalDropped := i.pedalDropped + 1 }))
    ∧ ∀ (k : Key) (o : Origin) (m : Moment) (i : Instrument),
        let r := i.keys[k]
        let left : KeyRecord := { r with holders := r.holders.erase o }
        let becomes (r' : KeyRecord) : Prop := release k o m i = { i with keys := i.keys.set k r' }
        (r.holders.has o = false → release k o m i = i)
        ∧ (r.holders.has o = true → left.holders.isEmpty = false → becomes left)
        ∧ (r.holders.has o = true → left.holders.isEmpty = true →
            (r.state = .hold → release k o m i = pass m { i with
              unitsInUse := i.unitsInUse - 1
              keys := i.keys.set k { left with
                state := .returning
                holdStart := none
                returnEnd := some (m.now + m.map.keys[k].returnTime * 100)
                channel := r.channel.switch m.now .off } })
            ∧ (r.state = .shed → r.returnEnd.isSome = true → becomes { left with state := .returning, holdStart := none })
            ∧ (r.state = .shed → r.returnEnd = none → becomes { left with state := .rest, holdStart := none })
            ∧ (r.state ≠ .hold → r.state ≠ .shed → becomes left))

/-! ### Pedals and the budget -/

/-- Down and up of a pedal (R121 to R125, R127, R129): the first holder of an empty set asks for 6 units, which, where nothing waits and
they fit, set the pedal travelling down from where it stands; a further holder joins without moving it; a source that is absent, and
one that leaves others behind, move nothing; the last to leave a waiting pedal withdraws its request, and the last to leave a pedal in
DOWN or GOING-DOWN sends it up from where it stands, with its assist where there is a travel and an assist length: all its units return
but the 1 of the assist, and the damper is no longer down and cuts every key in SHED (R108), each counting CUT. Its travels (R126, R128):
at the end of GOING-DOWN it is DOWN at its hold duty with 4 units returned, the damper reported down; at the end of the assist the bridge
is off with 1 unit returned; at the end of GOING-UP it is UP, an assist still running ending there. Each return runs a pass. Its position
(R125): 0 in UP, 1000 in DOWN and at the end of the way down, 0 at the end of the way up, and in between the start plus or less the part of
the way that the elapsed time is of the travel time, rounded down; the elapsed time in whole units of 0.1 ms (log 33, the model's choice). -/
def Obligations.PedalsMoveAndTravel : Prop :=
  (∀ (d : PedalName) (o : Origin) (m : Moment) (i : Instrument),
    let r := i.pedal d
    let g := m.map.pedal d
    let place := r.position m.now
    let time := (1000 - place) * g.downTravel / 1000 * 100
    (r.holders.has o = true → pedalDown d o m i = i)
    ∧ (r.holders.has o = false → r.holders.isEmpty = false →
        pedalDown d o m i = setPedal d { r with holders := r.holders.insert o } i)
    ∧ (r.holders.isEmpty = true →
        pedalDown d o m i = pass m (setPedal d { r with holders := r.holders.insert o, requestMoment := some m.now }
          { i with waitList := insertWait ⟨.pedal d, m.now, m.now + m.map.supply.lateLimit * 1000⟩ i.waitList }))
    ∧ (r.holders.isEmpty = true → i.waitList = [] → 0 < time → r.charge ≤ i.unitsInUse →
        i.unitsInUse + 6 ≤ effectiveCapacity i.monitor m.map.supply.capacity →
        pedalDown d o m i = setPedal d
          { r with
            holders := r.holders.insert o
            state := .goingDown
            requestMoment := none
            travel := some ⟨m.now, place, m.now + time⟩
            assistEnd := none
            bridge := r.bridge.switch m.now (.forward g.driveDuty) }
          { i with unitsInUse := i.unitsInUse + 6 - r.charge })
    ∧ (r.holders.has o = false → pedalUp d o m i = i)
    ∧ (r.holders.has o = true → (r.holders.erase o).isEmpty = false →
        pedalUp d o m i = setPedal d { r with holders := r.holders.erase o } i)
    ∧ (r.holders.has o = true → (r.holders.erase o).isEmpty = true → r.requestMoment.isSome = true →
        pedalUp d o m i = pass m (setPedal d { r with holders := r.holders.erase o, requestMoment := none }
          { i with waitList := i.waitList.filter fun e => decide (e.requester ≠ .pedal d) }))
    ∧ (r.holders.has o = true → (r.holders.erase o).isEmpty = true → r.requestMoment = none →
        let left : PedalRecord := { r with holders := r.holders.erase o }
        let travel := place * g.upTravel / 1000
        let assist := 0 < g.assistLength ∧ 0 < travel
        let leaves (held : Nat) : Prop :=
          let gone := setPedal d
            { left with
              state := if travel = 0 then .up else .goingUp
              travel := if travel = 0 then none else some ⟨m.now, place, m.now + travel * 100⟩
              assistEnd := if assist then some (m.now + g.assistLength * 100) else none
              bridge := r.bridge.switch m.now (if assist then .reverse g.assistDuty else .off) }
            { i with
              unitsInUse := i.unitsInUse - (if assist then held - 1 else held)
              damperDown := if d = .damper then false else i.damperDown }
          pedalUp d o m i = pass m (if d = .damper then cutShed gone else gone)
        (r.state = .goingDown → leaves 6) ∧ (r.state = .down → leaves 2)
          ∧ (r.state = .up ∨ r.state = .goingUp → pedalUp d o m i = pass m (setPedal d left i))))
    ∧ (∀ (r : PedalRecord) (now : Nat),
        (r.state = .up → r.position now = 0) ∧ (r.state = .down → r.position now = 1000)
        ∧ (∀ x : Travel, r.travel = some x →
            let elapsed := (now - x.start) / 100
            let whole := (x.finish - x.start) / 100
            (r.state = .goingDown → x.finish ≤ now → r.position now = 1000)
            ∧ (r.state = .goingUp → x.finish ≤ now → r.position now = 0)
            ∧ (r.state = .goingDown → now < x.finish →
                r.position now = x.estimate + (1000 - x.estimate) * elapsed / whole)
            ∧ (r.state = .goingUp → now < x.finish →
                r.position now = x.estimate - x.estimate * elapsed / whole)))
    ∧ (∀ i : Instrument,
        let i' := cutShed i
        let shed := allKeys.filter fun k => decide (i.keys[k].state = .shed)
        (∀ k : Key, i'.keys[k] = if i.keys[k].state = .shed
            then { i.keys[k] with
              state := if i.keys[k].returnEnd.isSome then .returning else .rest
              holders := ⟨false, false, false⟩
              holdStart := none }
            else i.keys[k])
        ∧ i' = { i with
          keys := i'.keys
          cut := i.cut + BitVec.ofNat 32 shed.length
          noticesA := if shed = [] then i.noticesA else i.noticesA ||| 0x008
          noticesB := if shed = [] then i.noticesB else i.noticesB ||| 0x008 })
    ∧ (∀ (d : PedalName) (t : Nat) (s : State), s.running = true → s.perf.now ≤ t →
    let i := s.perf.instrument
    let r := i.pedal d
    let p := advanceTo t s.perf
    let m := p.moment s.env
    (∀ x : Travel, r.state = .goingDown → r.travel = some x → x.finish = t →
      exec (.goingDownTravelEnd d) s = .next (settled s { p with instrument := pass m (setPedal d
        { r with
          state := .down
          travel := none
          assistEnd := none
          bridge := r.bridge.switch t (.forward (s.map.pedal d).holdDuty) }
        { i with
          unitsInUse := i.unitsInUse - 4
          damperDown := if d = .damper then true else i.damperDown }) }))
    ∧ (r.assistEnd = some t →
        exec (.assistEnd d) s = .next (settled s { p with instrument := pass m (setPedal d
          { r with assistEnd := none, bridge := r.bridge.switch t .off }
          { i with unitsInUse := i.unitsInUse - 1 }) }))
    ∧ (∀ x : Travel, r.state = .goingUp → r.travel = some x → x.finish = t →
        (r.assistEnd = none →
          exec (.goingUpTravelEnd d) s = .next (settled s { p with instrument := pass m (setPedal d
            { r with state := .up, travel := none } i) }))
        ∧ (r.assistEnd.isSome = true →
            exec (.goingUpTravelEnd d) s = .next (settled s { p with instrument := pass m (setPedal d
              { r with state := .up, travel := none, assistEnd := none, bridge := r.bridge.switch t .off }
              { i with unitsInUse := i.unitsInUse - 1 }) }))))

/-- The grant pass (R141): it runs to its end, where either the list is empty or its head does not fit, and, while units are over the
effective capacity or a head waits, nothing more can be shed; the entries it grants are taken from the front of the list; it
grants nothing over the capacity, and changes neither the counts of strikes arrived and lost nor the monitor level. Its moves, one at a
time: while units are over the capacity, or the head does not fit, under a lowered damper the key with the oldest hold start, the lowest
of equals, is shed (R106, R143); a head that fits is granted (R142): a key drives and FIRED counts, and LATE with its notice where it
waited more than 2.0 ms (R96); a pedal goes down from where it stands, and is DOWN at once where its travel has no length (R124). The
wait list puts pedals before keys, then earlier requests, then the damper and the lower key first (R140). -/
def Obligations.GrantPass : Prop :=
  (∀ (m : Moment) (i : Instrument),
    let i' := pass m i
    let capacity := effectiveCapacity i.monitor m.map.supply.capacity
    let stuck := i'.damperDown = false ∨ ∀ k : Key, i'.keys[k].state ≠ .hold
    (i'.waitList = [] ∨ (∃ e rest, i'.waitList = e :: rest ∧ capacity < i'.unitsInUse + e.requester.cost) ∨ capacity < i'.unitsInUse)
      ∧ (capacity < i'.unitsInUse → stuck)
      ∧ (i'.waitList ≠ [] → stuck)
      ∧ (∃ n, i'.waitList = i.waitList.drop n)
      ∧ (i.unitsInUse ≤ capacity → i'.unitsInUse ≤ capacity)
      ∧ i'.monitor = i.monitor ∧ i'.accepted = i.accepted ∧ i'.merged = i.merged ∧ i'.dropped = i.dropped
      ∧ i'.discarded = i.discarded ∧ i'.cut = i.cut ∧ i'.earlyRelease = i.earlyRelease
      ∧ i'.pedalDropped = i.pedalDropped)
    ∧ (∀ (m : Moment) (i : Instrument),
    let capacity := effectiveCapacity i.monitor m.map.supply.capacity
    let goesOn (i' : Instrument) : Prop := pass m i = pass m i'
    let start (k : Key) : Nat := i.keys[k].holdStart.getD 0
    let sheds : Prop := ∀ k : Key, i.keys[k].state = .hold →
      (∀ j : Key, i.keys[j].state = .hold → start k < start j ∨ (start k = start j ∧ k ≤ j)) →
      goesOn { i with
        unitsInUse := i.unitsInUse - 1
        shed := i.shed + 1
        keys := i.keys.set k { i.keys[k] with
          state := .shed
          returnEnd := some (m.now + m.map.keys[k].returnTime * 100)
          channel := i.keys[k].channel.switch m.now .off } }
    let noShed : Prop := i.damperDown = false ∨ ∀ k : Key, i.keys[k].state ≠ .hold
    (capacity < i.unitsInUse → i.damperDown = true → sheds)
      ∧ (capacity < i.unitsInUse → noShed → pass m i = i)
      ∧ (i.unitsInUse ≤ capacity → i.waitList = [] → pass m i = i)
      ∧ ∀ e rest, i.unitsInUse ≤ capacity → i.waitList = e :: rest →
          (capacity < i.unitsInUse + e.requester.cost → i.damperDown = true → sheds)
          ∧ (capacity < i.unitsInUse + e.requester.cost → noShed → pass m i = i)
          ∧ (∀ (k : Key) st, e.requester = .key k → i.unitsInUse + 3 ≤ capacity → i.keys[k].armed = some st →
              let late := e.requestMoment + 2000 < m.now
              goesOn { i with
                waitList := rest
                unitsInUse := i.unitsInUse + 3
                fired := i.fired + 1
                late := if late then i.late + 1 else i.late
                noticesA := if late then i.noticesA ||| 0x002 else i.noticesA
                noticesB := if late then i.noticesB ||| 0x002 else i.noticesB
                keys := i.keys.set k { i.keys[k] with
                  state := .drive
                  armed := none
                  requestMoment := none
                  driveEnd := some (m.now + m.map.keys[k].driveLength * 100)
                  channel := i.keys[k].channel.switch m.now (.forward st.duty) } })
          ∧ (∀ d : PedalName, e.requester = .pedal d → i.unitsInUse + 6 ≤ capacity →
              let r := i.pedal d
              let g := m.map.pedal d
              let place := r.position m.now
              let time := (1000 - place) * g.downTravel / 1000 * 100
              let driven := r.bridge.switch m.now (.forward g.driveDuty)
              (0 < time → goesOn (setPedal d
                { r with
                  state := .goingDown
                  requestMoment := none
                  travel := some ⟨m.now, place, m.now + time⟩
                  assistEnd := none
                  bridge := driven }
                { i with waitList := rest, unitsInUse := i.unitsInUse + 6 - r.charge }))
              ∧ (time = 0 → goesOn (setPedal d
                  { r with
                    state := .down
                    requestMoment := none
                    travel := none
                    assistEnd := none
                    bridge := driven.switch m.now (.forward g.holdDuty) }
                  { i with
                    waitList := rest
                    unitsInUse := i.unitsInUse + 6 - r.charge - 4
                    damperDown := if d = .damper then true else i.damperDown }))))
    ∧ ∀ (e : WaitEntry) (l : List WaitEntry),
        let place (q : Requester) : Nat := match q with
          | .pedal .damper => 0
          | .pedal .shift => 1
          | .key k => 2 + k.val
        let comesFirst (x y : WaitEntry) : Prop :=
          (x.requester.isPedal = true ∧ y.requester.isPedal = false)
          ∨ (x.requester.isPedal = y.requester.isPedal
              ∧ (x.requestMoment < y.requestMoment
                ∨ (x.requestMoment = y.requestMoment ∧ place x.requester < place y.requester)))
        ∃ front back, l = front ++ back ∧ insertWait e l = front ++ e :: back
          ∧ (∀ y ∈ front, ¬ comesFirst e y) ∧ ∀ y ∈ back.head?, comesFirst e y

/-! ### The track detector -/

/-- The paper (R29, R30, R34): the left edge is the first sample, and the right edge the last, of eight PAPER samples in a row; a line is good
where both are found, the width is within 6 samples of the nominal one and half the sum of the displacements of the edges, rounded toward
zero, is -40 to 40; a window is the sample at the centre of the track plus the applied offset and one on each side, PAPER outside the line.
Edge tracking (R30, R31): on a good line the applied offset moves one sample toward the measured one, the bad-line run ends and the
good-line run grows up to 32; on a bad line the offset stays, the bad-line run grows and the good-line run ends; on a line that makes
the run 24 no window is read (R33). The hole detector of a track (R37 to R42): two OPEN lines are run, a third confirms the hole, a PAPER
line before that is a pinhole; two PAPER lines in a row end the hole, one does not; an ordinary track emits HOLE-START at its start and
HOLE-END at its first PAPER line; a length-classed track emits SLOT-START once its hole has 14 lines, and at its end PUNCH up to 10
lines, nothing but AMBIGUOUS for 11 to 13, else SLOT-END; an accent track emits nothing. The events of a line go in ascending track order,
a note's HOLE-START accented where the hole of its half's accent track is OPEN or CLOSING (R43, R44), and PINHOLE and AMBIGUOUS count once
for each track (log 32, the model's choice). On a sensor line a window whose samples are not all alike adds to the track's noise count, up to
65,535 (R35), and BAD-LINE counts each bad line (R33). The holes of a drained stream close at the roll position (R45). -/
def Obligations.DetectorReads : Prop :=
  (∀ (map : RegulationMap) (line : SensorLine) (reading : Nat) (d : Detector),
    let d' := d.trackEdges map.tracker line
    (∀ measured, goodOffset map.tracker line = some measured →
      d' = { d with
        appliedOffset := if d.appliedOffset < measured then d.appliedOffset + 1
          else if measured < d.appliedOffset then d.appliedOffset - 1 else d.appliedOffset
        badRun := 0
        goodRun := min 32 (d.goodRun + 1) })
    ∧ (goodOffset map.tracker line = none → d' = { d with badRun := d.badRun + 1, goodRun := 0 })
    ∧ (∀ measured, goodOffset map.tracker line = some measured → -40 ≤ measured ∧ measured ≤ 40)
    ∧ (let paper (i : Nat) : Prop := i + 8 ≤ 1200 ∧ ∀ j, j < 8 → line.getLsbD (i + j) = false
       (∀ e, leftEdge line = some e ↔ paper e ∧ ∀ i, i < e → ¬ paper i)
        ∧ (∀ e, rightEdge line = some e ↔ 7 ≤ e ∧ paper (e - 7) ∧ ∀ i, e < i + 7 → ¬ paper i)
        ∧ (∀ measured, goodOffset map.tracker line = some measured ↔ ∃ left right,
            leftEdge line = some left ∧ rightEdge line = some right
              ∧ right + map.tracker.leftEdge ≤ left + map.tracker.rightEdge + 6
              ∧ left + map.tracker.rightEdge ≤ right + map.tracker.leftEdge + 6
              ∧ measured = Int.tdiv (((left : Int) - map.tracker.leftEdge) + ((right : Int) - map.tracker.rightEdge)) 2
              ∧ -40 ≤ measured ∧ measured ≤ 40))
    ∧ (∀ (offset : Int) (k : Track),
        let centre : Int := (map.tracker.centres[k] : Int) + offset
        let sample (i : Int) : Nat := if 0 ≤ i ∧ i < 1200 ∧ line.getLsbD i.toNat = true then 1 else 0
        windowCount map.tracker offset line k = sample (centre - 1) + sample centre + sample (centre + 1))
    ∧ (d'.badRun < 24 →
        let count (k : Track) : Nat := windowCount map.tracker d'.appliedOffset line k
        let out := d.sensorLine map reading line
        (∀ k : Track, out.1.noise[k]
            = if count k = 1 ∨ count k = 2 then min 65535 (d.noise[k] + 1) else d.noise[k])
          ∧ readsLine map.expression.splitKey (fun k => holeStep k reading (decide (2 ≤ count k)) d.holes[k])
            { d' with
              noise := out.1.noise
              badLine := if (goodOffset map.tracker line).isSome then d.badLine else d.badLine + 1 } out)
    ∧ (24 ≤ d'.badRun → (d.sensorLine map reading line).2 = []
        ∧ (d.sensorLine map reading line).1 = { d' with badLine := d.badLine + 1 }))
    ∧ (∀ (k : Track) (reading start paper : Nat) (second given : Bool),
    let line (h : Hole) (isOpen : Bool) : HoleStep := holeStep k reading isOpen h
    let lengthClassed := k.val = 2 ∨ k.val = 95 ∨ k.val = 98
    let accent := k.val = 3 ∨ k.val = 94
    let length := paper - start
    line .closed true = ⟨.opening false reading, none, false, false⟩
    ∧ line .closed false = ⟨.closed, none, false, false⟩
    ∧ line (.opening second start) false = ⟨.closed, none, true, false⟩
    ∧ line (.opening false start) true = ⟨.opening true start, none, false, false⟩
    ∧ (line (.opening true start) true).hole = .opened start false
    ∧ (lengthClassed ∨ accent → (line (.opening true start) true).event = none)
    ∧ (¬ lengthClassed → ¬ accent →
        (line (.opening true start) true).event = some ⟨.holeStart, k, start, reading, none, false⟩)
    ∧ line (.opened start given) false = ⟨.closing start reading given, none, false, false⟩
    ∧ (¬ lengthClassed →
        line (.opened start given) true = ⟨.opened start given, none, false, false⟩
          ∧ line (.closing start paper given) true = ⟨.opened start given, none, false, false⟩)
    ∧ (lengthClassed →
        let step := line (.opened start given) true
        step = line (.closing start paper given) true
          ∧ (given = true ∨ reading + 1 < start + 14 → step = ⟨.opened start given, none, false, false⟩)
          ∧ (given = false → start + 14 ≤ reading + 1 →
              step = ⟨.opened start true, some ⟨.slotStart, k, start, reading, none, false⟩, false, false⟩))
    ∧ (let step := line (.closing start paper given) false
       step.hole = .closed ∧ step.pinhole = false
        ∧ (accent → step.event = none ∧ step.ambiguous = false)
        ∧ (¬ lengthClassed → ¬ accent →
            step.event = some ⟨.holeEnd, k, paper, reading, some length, false⟩ ∧ step.ambiguous = false)
        ∧ (lengthClassed →
            (length ≤ 10 → step.event = some ⟨.punch, k, start, reading, some length, false⟩ ∧ step.ambiguous = false)
            ∧ (11 ≤ length → length ≤ 13 → step.event = none ∧ step.ambiguous = true)
            ∧ (14 ≤ length →
                step.event = some ⟨.slotEnd, k, paper, reading, some length, false⟩ ∧ step.ambiguous = false)))
    ∧ closeStep k reading .closed = ⟨.closed, none, false, false⟩
    ∧ closeStep k reading (.opening second start) = ⟨.closed, none, true, false⟩
    ∧ closeStep k reading (.opened start given) = line (.closing start reading given) false
    ∧ closeStep k reading (.closing start paper given) = line (.closing start paper given) false)
    ∧ ∀ (map : RegulationMap) (reading : Nat) (d : Detector),
        let split := map.expression.splitKey
        (∀ line, readsLine split (fun k => holeStep k reading (line.getLsbD k.val) d.holes[k]) d
            (d.streamLine map reading line))
          ∧ readsLine split (fun k => closeStep k reading d.holes[k]) d (d.closeHoles map reading)
          ∧ (∀ start given, (Hole.opened start given).marks = true)
          ∧ (∀ start paper given, (Hole.closing start paper given).marks = true)
          ∧ Hole.closed.marks = false ∧ ∀ second start, (Hole.opening second start).marks = false

/-! ### Invariants -/

/-- The queue of actions stays in order and the buffers keep within their room, whatever command is taken (R13, R14, R49, R51, R187). -/
def Obligations.QueuesStayInOrder : Prop :=
  (∀ s s', queueInOrder s → step s = .next s' → queueInOrder s')
    ∧ ∀ s s', buffersFit s → step s = .next s' → buffersFit s'

/-- The working map and every INTACT profile stay in range, and profile 0 stays FIXED and INTACT (R152, R159, R160). -/
def Obligations.MapsStayInRange : Prop :=
  ∀ s s', mapsInRange s → step s = .next s' → mapsInRange s'

/-- A session that is over leaves nothing behind, and a link that holds the claim stays UP (R20, R23, R171, R175, R190). -/
def Obligations.SessionsAndClaimsEnd : Prop :=
  (∀ s s', idleIsClear s → step s = .next s' → idleIsClear s')
    ∧ ∀ s s', holderIsUp s → step s = .next s' → holderIsUp s'

/-- The records of keys, pedals and wait list stay in agreement, and the units in use stay the sum of the charges (R85, R119, R136,
R137). -/
def Obligations.InstrumentStaysCoherent : Prop :=
  ∀ s s', instrumentCoherent s.perf.instrument → step s = .next s' → instrumentCoherent s'.perf.instrument

/-- Every accepted strike stays accounted for, whatever command is taken: fired, merged, dropped, discarded or in flight (R118). -/
def Obligations.StrikesStayConserved : Prop :=
  ∀ s s', instrumentCoherent s.perf.instrument → strikesConserved s.perf → step s = .next s' →
    strikesConserved s'.perf

/-- Every invariant holds right after reset, and every command of the part is answered with a next state: none faults or is
refused. -/
def Obligations.ResetMeetsInvariants : Prop :=
  queueInOrder State.reset ∧ buffersFit State.reset ∧ mapsInRange State.reset ∧ idleIsClear State.reset
    ∧ holderIsUp State.reset ∧ instrumentCoherent State.reset.perf.instrument ∧ strikesConserved State.reset.perf
    ∧ ∀ (c : Instr) (s : State), ∃ t, exec c s = .next t
end

