-- ==== Sys2Proof/Laws/State.lean ====
section
/-! SUPPORT. What each named update leaves in every field it does not change, and what it puts in the field it does: one lemma per
field per update, so that no later proof unfolds a record update. -/

namespace Sys2Proof.Machine

/-! ### setLink -/

@[simp] theorem setLink_perf (l : Link) (r : LinkRecord) (s : State) :
    (setLink l r s).perf = s.perf := by
  cases l <;> rfl

@[simp] theorem setLink_map (l : Link) (r : LinkRecord) (s : State) :
    (setLink l r s).map = s.map := by
  cases l <;> rfl

@[simp] theorem setLink_store (l : Link) (r : LinkRecord) (s : State) :
    (setLink l r s).store = s.store := by
  cases l <;> rfl

@[simp] theorem setLink_claim (l : Link) (r : LinkRecord) (s : State) :
    (setLink l r s).claim = s.claim := by
  cases l <;> rfl

@[simp] theorem setLink_power (l : Link) (r : LinkRecord) (s : State) :
    (setLink l r s).power = s.power := by
  cases l <;> rfl

@[simp] theorem setLink_pins (l : Link) (r : LinkRecord) (s : State) :
    (setLink l r s).pins = s.pins := by
  cases l <;> rfl

@[simp] theorem setLink_freeCount (l : Link) (r : LinkRecord) (s : State) :
    (setLink l r s).freeCount = s.freeCount := by
  cases l <;> rfl

@[simp] theorem setLink_pending (l : Link) (r : LinkRecord) (s : State) :
    (setLink l r s).pending = s.pending := by
  cases l <;> rfl

@[simp] theorem setLink_link (l : Link) (r : LinkRecord) (s : State) :
    (setLink l r s).link l = r := by
  cases l <;> rfl

@[simp] theorem setLink_link_other (l : Link) (r : LinkRecord) (s : State) :
    (setLink l r s).link l.other = s.link l.other := by
  cases l <;> rfl

@[simp] theorem setLink_setLink (l : Link) (r r' : LinkRecord) (s : State) :
    setLink l r (setLink l r' s) = setLink l r s := by
  cases l <;> rfl

@[simp] theorem setLink_link_self (l : Link) (s : State) :
    setLink l (s.link l) s = s := by
  cases l <;> rfl

/-! ### onPerf -/

@[simp] theorem onPerf_map (f : Env → Performance → Performance) (s : State) :
    (onPerf f s).map = s.map := rfl

@[simp] theorem onPerf_store (f : Env → Performance → Performance) (s : State) :
    (onPerf f s).store = s.store := rfl

@[simp] theorem onPerf_claim (f : Env → Performance → Performance) (s : State) :
    (onPerf f s).claim = s.claim := rfl

@[simp] theorem onPerf_linkA (f : Env → Performance → Performance) (s : State) :
    (onPerf f s).linkA = s.linkA := rfl

@[simp] theorem onPerf_linkB (f : Env → Performance → Performance) (s : State) :
    (onPerf f s).linkB = s.linkB := rfl

@[simp] theorem onPerf_power (f : Env → Performance → Performance) (s : State) :
    (onPerf f s).power = s.power := rfl

@[simp] theorem onPerf_pins (f : Env → Performance → Performance) (s : State) :
    (onPerf f s).pins = s.pins := rfl

@[simp] theorem onPerf_freeCount (f : Env → Performance → Performance) (s : State) :
    (onPerf f s).freeCount = s.freeCount := rfl

@[simp] theorem onPerf_pending (f : Env → Performance → Performance) (s : State) :
    (onPerf f s).pending = s.pending := rfl

@[simp] theorem onPerf_perf (f : Env → Performance → Performance) (s : State) :
    (onPerf f s).perf = f s.env s.perf := rfl

@[simp] theorem onPerf_link (f : Env → Performance → Performance) (l : Link) (s : State) :
    (onPerf f s).link l = s.link l := by
  cases l <;> rfl

/-! ### mapInstrument -/

@[simp] theorem mapInstrument_map (f : Instrument → Instrument) (s : State) :
    (mapInstrument f s).map = s.map := rfl

@[simp] theorem mapInstrument_store (f : Instrument → Instrument) (s : State) :
    (mapInstrument f s).store = s.store := rfl

@[simp] theorem mapInstrument_claim (f : Instrument → Instrument) (s : State) :
    (mapInstrument f s).claim = s.claim := rfl

@[simp] theorem mapInstrument_linkA (f : Instrument → Instrument) (s : State) :
    (mapInstrument f s).linkA = s.linkA := rfl

@[simp] theorem mapInstrument_linkB (f : Instrument → Instrument) (s : State) :
    (mapInstrument f s).linkB = s.linkB := rfl

@[simp] theorem mapInstrument_power (f : Instrument → Instrument) (s : State) :
    (mapInstrument f s).power = s.power := rfl

@[simp] theorem mapInstrument_pins (f : Instrument → Instrument) (s : State) :
    (mapInstrument f s).pins = s.pins := rfl

@[simp] theorem mapInstrument_freeCount (f : Instrument → Instrument) (s : State) :
    (mapInstrument f s).freeCount = s.freeCount := rfl

@[simp] theorem mapInstrument_pending (f : Instrument → Instrument) (s : State) :
    (mapInstrument f s).pending = s.pending := rfl

@[simp] theorem mapInstrument_perf (f : Instrument → Instrument) (s : State) :
    (mapInstrument f s).perf = { s.perf with instrument := f s.perf.instrument } := rfl

/-! ### dropClaim -/

@[simp] theorem dropClaim_perf  (s : State) :
    (dropClaim s).perf = s.perf := rfl

@[simp] theorem dropClaim_map  (s : State) :
    (dropClaim s).map = s.map := rfl

@[simp] theorem dropClaim_store  (s : State) :
    (dropClaim s).store = s.store := rfl

@[simp] theorem dropClaim_linkA  (s : State) :
    (dropClaim s).linkA = s.linkA := rfl

@[simp] theorem dropClaim_linkB  (s : State) :
    (dropClaim s).linkB = s.linkB := rfl

@[simp] theorem dropClaim_power  (s : State) :
    (dropClaim s).power = s.power := rfl

@[simp] theorem dropClaim_pins  (s : State) :
    (dropClaim s).pins = s.pins := rfl

@[simp] theorem dropClaim_freeCount  (s : State) :
    (dropClaim s).freeCount = s.freeCount := rfl

@[simp] theorem dropClaim_pending  (s : State) :
    (dropClaim s).pending = s.pending := rfl

@[simp] theorem dropClaim_claim  (s : State) :
    (dropClaim s).claim = { s.claim with held := none } := rfl

/-! ### grantLease -/

@[simp] theorem grantLease_perf (l : Link) (b : Bool) (s : State) :
    (grantLease l b s).perf = s.perf := rfl

@[simp] theorem grantLease_map (l : Link) (b : Bool) (s : State) :
    (grantLease l b s).map = s.map := rfl

@[simp] theorem grantLease_store (l : Link) (b : Bool) (s : State) :
    (grantLease l b s).store = s.store := rfl

@[simp] theorem grantLease_linkA (l : Link) (b : Bool) (s : State) :
    (grantLease l b s).linkA = s.linkA := rfl

@[simp] theorem grantLease_linkB (l : Link) (b : Bool) (s : State) :
    (grantLease l b s).linkB = s.linkB := rfl

@[simp] theorem grantLease_power (l : Link) (b : Bool) (s : State) :
    (grantLease l b s).power = s.power := rfl

@[simp] theorem grantLease_pins (l : Link) (b : Bool) (s : State) :
    (grantLease l b s).pins = s.pins := rfl

@[simp] theorem grantLease_freeCount (l : Link) (b : Bool) (s : State) :
    (grantLease l b s).freeCount = s.freeCount := rfl

@[simp] theorem grantLease_pending (l : Link) (b : Bool) (s : State) :
    (grantLease l b s).pending = s.pending := rfl

@[simp] theorem grantLease_claim (l : Link) (b : Bool) (s : State) :
    (grantLease l b s).claim = { s.claim with held := some ⟨l, s.perf.now + leaseLength, b⟩ } := rfl

/-! ### passTo -/

@[simp] theorem passTo_map (t : Nat) (s : State) :
    (passTo t s).map = s.map := rfl

@[simp] theorem passTo_store (t : Nat) (s : State) :
    (passTo t s).store = s.store := rfl

@[simp] theorem passTo_claim (t : Nat) (s : State) :
    (passTo t s).claim = s.claim := rfl

@[simp] theorem passTo_linkA (t : Nat) (s : State) :
    (passTo t s).linkA = s.linkA := rfl

@[simp] theorem passTo_linkB (t : Nat) (s : State) :
    (passTo t s).linkB = s.linkB := rfl

@[simp] theorem passTo_power (t : Nat) (s : State) :
    (passTo t s).power = s.power := rfl

@[simp] theorem passTo_pins (t : Nat) (s : State) :
    (passTo t s).pins = s.pins := rfl

@[simp] theorem passTo_freeCount (t : Nat) (s : State) :
    (passTo t s).freeCount = s.freeCount := rfl

@[simp] theorem passTo_pending (t : Nat) (s : State) :
    (passTo t s).pending = s.pending := rfl

@[simp] theorem passTo_perf (t : Nat) (s : State) :
    (passTo t s).perf = advanceTo t s.perf := rfl

/-! ### onStore -/

@[simp] theorem onStore_perf (f : Store → Store) (s : State) :
    (onStore f s).perf = s.perf := rfl

@[simp] theorem onStore_map (f : Store → Store) (s : State) :
    (onStore f s).map = s.map := rfl

@[simp] theorem onStore_claim (f : Store → Store) (s : State) :
    (onStore f s).claim = s.claim := rfl

@[simp] theorem onStore_linkA (f : Store → Store) (s : State) :
    (onStore f s).linkA = s.linkA := rfl

@[simp] theorem onStore_linkB (f : Store → Store) (s : State) :
    (onStore f s).linkB = s.linkB := rfl

@[simp] theorem onStore_power (f : Store → Store) (s : State) :
    (onStore f s).power = s.power := rfl

@[simp] theorem onStore_pins (f : Store → Store) (s : State) :
    (onStore f s).pins = s.pins := rfl

@[simp] theorem onStore_freeCount (f : Store → Store) (s : State) :
    (onStore f s).freeCount = s.freeCount := rfl

@[simp] theorem onStore_pending (f : Store → Store) (s : State) :
    (onStore f s).pending = s.pending := rfl

@[simp] theorem onStore_store (f : Store → Store) (s : State) :
    (onStore f s).store = f s.store := rfl

/-! ### setPins -/

@[simp] theorem setPins_perf (f : Pins → Pins) (s : State) :
    (setPins f s).perf = s.perf := rfl

@[simp] theorem setPins_map (f : Pins → Pins) (s : State) :
    (setPins f s).map = s.map := rfl

@[simp] theorem setPins_store (f : Pins → Pins) (s : State) :
    (setPins f s).store = s.store := rfl

@[simp] theorem setPins_claim (f : Pins → Pins) (s : State) :
    (setPins f s).claim = s.claim := rfl

@[simp] theorem setPins_linkA (f : Pins → Pins) (s : State) :
    (setPins f s).linkA = s.linkA := rfl

@[simp] theorem setPins_linkB (f : Pins → Pins) (s : State) :
    (setPins f s).linkB = s.linkB := rfl

@[simp] theorem setPins_power (f : Pins → Pins) (s : State) :
    (setPins f s).power = s.power := rfl

@[simp] theorem setPins_freeCount (f : Pins → Pins) (s : State) :
    (setPins f s).freeCount = s.freeCount := rfl

@[simp] theorem setPins_pending (f : Pins → Pins) (s : State) :
    (setPins f s).pending = s.pending := rfl

@[simp] theorem setPins_pins (f : Pins → Pins) (s : State) :
    (setPins f s).pins = f s.pins := rfl

/-! ### changePerf -/

@[simp] theorem changePerf_map (f : Env → Performance → Performance) (s : State) :
    (changePerf f s).map = s.map := by
  unfold changePerf
  split <;> rfl

@[simp] theorem changePerf_store (f : Env → Performance → Performance) (s : State) :
    (changePerf f s).store = s.store := by
  unfold changePerf
  split <;> rfl

@[simp] theorem changePerf_claim (f : Env → Performance → Performance) (s : State) :
    (changePerf f s).claim = s.claim := by
  unfold changePerf
  split <;> rfl

@[simp] theorem changePerf_linkA (f : Env → Performance → Performance) (s : State) :
    (changePerf f s).linkA = s.linkA := by
  unfold changePerf
  split <;> rfl

@[simp] theorem changePerf_linkB (f : Env → Performance → Performance) (s : State) :
    (changePerf f s).linkB = s.linkB := by
  unfold changePerf
  split <;> rfl

@[simp] theorem changePerf_power (f : Env → Performance → Performance) (s : State) :
    (changePerf f s).power = s.power := by
  unfold changePerf
  split <;> rfl

@[simp] theorem changePerf_pins (f : Env → Performance → Performance) (s : State) :
    (changePerf f s).pins = s.pins := by
  unfold changePerf
  split <;> rfl

@[simp] theorem changePerf_freeCount (f : Env → Performance → Performance) (s : State) :
    (changePerf f s).freeCount = s.freeCount := by
  unfold changePerf
  split <;> rfl

@[simp] theorem changePerf_pending (f : Env → Performance → Performance) (s : State) :
    (changePerf f s).pending = s.pending := by
  unfold changePerf
  split <;> rfl

@[simp] theorem changePerf_link (f : Env → Performance → Performance) (l : Link) (s : State) :
    (changePerf f s).link l = s.link l := by
  cases l <;> simp [State.link]

/-! ### onSession -/

@[simp] theorem onSession_now (f : Session → Session) (p : Performance) :
    (onSession f p).now = p.now := rfl

@[simp] theorem onSession_detector (f : Session → Session) (p : Performance) :
    (onSession f p).detector = p.detector := rfl

@[simp] theorem onSession_queue (f : Session → Session) (p : Performance) :
    (onSession f p).queue = p.queue := rfl

@[simp] theorem onSession_expression (f : Session → Session) (p : Performance) :
    (onSession f p).expression = p.expression := rfl

@[simp] theorem onSession_instrument (f : Session → Session) (p : Performance) :
    (onSession f p).instrument = p.instrument := rfl

@[simp] theorem onSession_session (f : Session → Session) (p : Performance) :
    (onSession f p).session = f p.session := rfl

/-! ### onInstrument -/

@[simp] theorem onInstrument_now (e : Env) (f : Moment → Instrument → Instrument) (p : Performance) :
    (onInstrument e f p).now = p.now := rfl

@[simp] theorem onInstrument_session (e : Env) (f : Moment → Instrument → Instrument) (p : Performance) :
    (onInstrument e f p).session = p.session := rfl

@[simp] theorem onInstrument_detector (e : Env) (f : Moment → Instrument → Instrument) (p : Performance) :
    (onInstrument e f p).detector = p.detector := rfl

@[simp] theorem onInstrument_queue (e : Env) (f : Moment → Instrument → Instrument) (p : Performance) :
    (onInstrument e f p).queue = p.queue := rfl

@[simp] theorem onInstrument_expression (e : Env) (f : Moment → Instrument → Instrument) (p : Performance) :
    (onInstrument e f p).expression = p.expression := rfl

@[simp] theorem onInstrument_instrument (e : Env) (f : Moment → Instrument → Instrument) (p : Performance) :
    (onInstrument e f p).instrument = f (p.moment e) p.instrument := rfl

/-! ### discardEntries -/

@[simp] theorem discardEntries_now (t : Entry → Bool) (p : Performance) :
    (discardEntries t p).now = p.now := rfl

@[simp] theorem discardEntries_session (t : Entry → Bool) (p : Performance) :
    (discardEntries t p).session = p.session := rfl

@[simp] theorem discardEntries_detector (t : Entry → Bool) (p : Performance) :
    (discardEntries t p).detector = p.detector := rfl

@[simp] theorem discardEntries_expression (t : Entry → Bool) (p : Performance) :
    (discardEntries t p).expression = p.expression := rfl

@[simp] theorem discardEntries_queue (t : Entry → Bool) (p : Performance) :
    (discardEntries t p).queue = (p.queue.discard t).2 := rfl

@[simp] theorem discardEntries_instrument (t : Entry → Bool) (p : Performance) :
    (discardEntries t p).instrument = countDiscarded (p.queue.discard t).1 p.instrument := rfl

/-! ### startExpression -/

@[simp] theorem startExpression_now (e : Env) (p : Performance) :
    (startExpression e p).now = p.now := rfl

@[simp] theorem startExpression_session (e : Env) (p : Performance) :
    (startExpression e p).session = p.session := rfl

@[simp] theorem startExpression_detector (e : Env) (p : Performance) :
    (startExpression e p).detector = p.detector := rfl

@[simp] theorem startExpression_queue (e : Env) (p : Performance) :
    (startExpression e p).queue = p.queue := rfl

@[simp] theorem startExpression_instrument (e : Env) (p : Performance) :
    (startExpression e p).instrument = p.instrument := rfl

@[simp] theorem startExpression_expression (e : Env) (p : Performance) :
    (startExpression e p).expression = p.expression.startSession e.map := rfl

/-! ### pauseEffects -/

@[simp] theorem pauseEffects_now (e : Env) (p : Performance) :
    (pauseEffects e p).now = p.now := by
  simp only [pauseEffects, onInstrument]

@[simp] theorem pauseEffects_session (e : Env) (p : Performance) :
    (pauseEffects e p).session = p.session := by
  simp only [pauseEffects, onInstrument]

@[simp] theorem pauseEffects_detector (e : Env) (p : Performance) :
    (pauseEffects e p).detector = p.detector := by
  simp only [pauseEffects, onInstrument]

@[simp] theorem pauseEffects_queue (e : Env) (p : Performance) :
    (pauseEffects e p).queue = p.queue := by
  simp only [pauseEffects, onInstrument]

@[simp] theorem pauseEffects_expression (e : Env) (p : Performance) :
    (pauseEffects e p).expression = p.expression := by
  simp only [pauseEffects, onInstrument]

@[simp] theorem pauseEffects_instrument (e : Env) (p : Performance) :
    (pauseEffects e p).instrument = pauseInstrument (p.moment e) p.instrument := by
  simp only [pauseEffects, onInstrument]

/-! ### clearPerformance -/

@[simp] theorem clearPerformance_now  (p : Performance) :
    (clearPerformance p).now = p.now := by
  simp only [clearPerformance]

@[simp] theorem clearPerformance_expression  (p : Performance) :
    (clearPerformance p).expression = p.expression := by
  simp only [clearPerformance]

/-! ### setKey -/

@[simp] theorem setKey_accepted (k : Key) (r : KeyRecord) (i : Instrument) :
    (setKey k r i).accepted = i.accepted := rfl

@[simp] theorem setKey_fired (k : Key) (r : KeyRecord) (i : Instrument) :
    (setKey k r i).fired = i.fired := rfl

@[simp] theorem setKey_merged (k : Key) (r : KeyRecord) (i : Instrument) :
    (setKey k r i).merged = i.merged := rfl

@[simp] theorem setKey_dropped (k : Key) (r : KeyRecord) (i : Instrument) :
    (setKey k r i).dropped = i.dropped := rfl

@[simp] theorem setKey_discarded (k : Key) (r : KeyRecord) (i : Instrument) :
    (setKey k r i).discarded = i.discarded := rfl

@[simp] theorem setKey_late (k : Key) (r : KeyRecord) (i : Instrument) :
    (setKey k r i).late = i.late := rfl

@[simp] theorem setKey_cut (k : Key) (r : KeyRecord) (i : Instrument) :
    (setKey k r i).cut = i.cut := rfl

@[simp] theorem setKey_shed (k : Key) (r : KeyRecord) (i : Instrument) :
    (setKey k r i).shed = i.shed := rfl

@[simp] theorem setKey_earlyRelease (k : Key) (r : KeyRecord) (i : Instrument) :
    (setKey k r i).earlyRelease = i.earlyRelease := rfl

@[simp] theorem setKey_damper (k : Key) (r : KeyRecord) (i : Instrument) :
    (setKey k r i).damper = i.damper := rfl

@[simp] theorem setKey_shift (k : Key) (r : KeyRecord) (i : Instrument) :
    (setKey k r i).shift = i.shift := rfl

@[simp] theorem setKey_pedalDropped (k : Key) (r : KeyRecord) (i : Instrument) :
    (setKey k r i).pedalDropped = i.pedalDropped := rfl

@[simp] theorem setKey_monitor (k : Key) (r : KeyRecord) (i : Instrument) :
    (setKey k r i).monitor = i.monitor := rfl

@[simp] theorem setKey_unitsInUse (k : Key) (r : KeyRecord) (i : Instrument) :
    (setKey k r i).unitsInUse = i.unitsInUse := rfl

@[simp] theorem setKey_damperDown (k : Key) (r : KeyRecord) (i : Instrument) :
    (setKey k r i).damperDown = i.damperDown := rfl

@[simp] theorem setKey_waitList (k : Key) (r : KeyRecord) (i : Instrument) :
    (setKey k r i).waitList = i.waitList := rfl

@[simp] theorem setKey_noticesA (k : Key) (r : KeyRecord) (i : Instrument) :
    (setKey k r i).noticesA = i.noticesA := rfl

@[simp] theorem setKey_noticesB (k : Key) (r : KeyRecord) (i : Instrument) :
    (setKey k r i).noticesB = i.noticesB := rfl

@[simp] theorem setKey_keys (k : Key) (r : KeyRecord) (i : Instrument) :
    (setKey k r i).keys = i.keys.set k r := rfl

/-! ### setPedal -/

@[simp] theorem setPedal_keys (d : PedalName) (r : PedalRecord) (i : Instrument) :
    (setPedal d r i).keys = i.keys := by
  cases d <;> rfl

@[simp] theorem setPedal_accepted (d : PedalName) (r : PedalRecord) (i : Instrument) :
    (setPedal d r i).accepted = i.accepted := by
  cases d <;> rfl

@[simp] theorem setPedal_fired (d : PedalName) (r : PedalRecord) (i : Instrument) :
    (setPedal d r i).fired = i.fired := by
  cases d <;> rfl

@[simp] theorem setPedal_merged (d : PedalName) (r : PedalRecord) (i : Instrument) :
    (setPedal d r i).merged = i.merged := by
  cases d <;> rfl

@[simp] theorem setPedal_dropped (d : PedalName) (r : PedalRecord) (i : Instrument) :
    (setPedal d r i).dropped = i.dropped := by
  cases d <;> rfl

@[simp] theorem setPedal_discarded (d : PedalName) (r : PedalRecord) (i : Instrument) :
    (setPedal d r i).discarded = i.discarded := by
  cases d <;> rfl

@[simp] theorem setPedal_late (d : PedalName) (r : PedalRecord) (i : Instrument) :
    (setPedal d r i).late = i.late := by
  cases d <;> rfl

@[simp] theorem setPedal_cut (d : PedalName) (r : PedalRecord) (i : Instrument) :
    (setPedal d r i).cut = i.cut := by
  cases d <;> rfl

@[simp] theorem setPedal_shed (d : PedalName) (r : PedalRecord) (i : Instrument) :
    (setPedal d r i).shed = i.shed := by
  cases d <;> rfl

@[simp] theorem setPedal_earlyRelease (d : PedalName) (r : PedalRecord) (i : Instrument) :
    (setPedal d r i).earlyRelease = i.earlyRelease := by
  cases d <;> rfl

@[simp] theorem setPedal_pedalDropped (d : PedalName) (r : PedalRecord) (i : Instrument) :
    (setPedal d r i).pedalDropped = i.pedalDropped := by
  cases d <;> rfl

@[simp] theorem setPedal_monitor (d : PedalName) (r : PedalRecord) (i : Instrument) :
    (setPedal d r i).monitor = i.monitor := by
  cases d <;> rfl

@[simp] theorem setPedal_unitsInUse (d : PedalName) (r : PedalRecord) (i : Instrument) :
    (setPedal d r i).unitsInUse = i.unitsInUse := by
  cases d <;> rfl

@[simp] theorem setPedal_damperDown (d : PedalName) (r : PedalRecord) (i : Instrument) :
    (setPedal d r i).damperDown = i.damperDown := by
  cases d <;> rfl

@[simp] theorem setPedal_waitList (d : PedalName) (r : PedalRecord) (i : Instrument) :
    (setPedal d r i).waitList = i.waitList := by
  cases d <;> rfl

@[simp] theorem setPedal_noticesA (d : PedalName) (r : PedalRecord) (i : Instrument) :
    (setPedal d r i).noticesA = i.noticesA := by
  cases d <;> rfl

@[simp] theorem setPedal_noticesB (d : PedalName) (r : PedalRecord) (i : Instrument) :
    (setPedal d r i).noticesB = i.noticesB := by
  cases d <;> rfl

@[simp] theorem setPedal_pedal (d : PedalName) (r : PedalRecord) (i : Instrument) :
    (setPedal d r i).pedal d = r := by
  cases d <;> rfl

/-! ### returnUnits -/

@[simp] theorem returnUnits_keys (n : Nat) (i : Instrument) :
    (returnUnits n i).keys = i.keys := rfl

@[simp] theorem returnUnits_accepted (n : Nat) (i : Instrument) :
    (returnUnits n i).accepted = i.accepted := rfl

@[simp] theorem returnUnits_fired (n : Nat) (i : Instrument) :
    (returnUnits n i).fired = i.fired := rfl

@[simp] theorem returnUnits_merged (n : Nat) (i : Instrument) :
    (returnUnits n i).merged = i.merged := rfl

@[simp] theorem returnUnits_dropped (n : Nat) (i : Instrument) :
    (returnUnits n i).dropped = i.dropped := rfl

@[simp] theorem returnUnits_discarded (n : Nat) (i : Instrument) :
    (returnUnits n i).discarded = i.discarded := rfl

@[simp] theorem returnUnits_late (n : Nat) (i : Instrument) :
    (returnUnits n i).late = i.late := rfl

@[simp] theorem returnUnits_cut (n : Nat) (i : Instrument) :
    (returnUnits n i).cut = i.cut := rfl

@[simp] theorem returnUnits_shed (n : Nat) (i : Instrument) :
    (returnUnits n i).shed = i.shed := rfl

@[simp] theorem returnUnits_earlyRelease (n : Nat) (i : Instrument) :
    (returnUnits n i).earlyRelease = i.earlyRelease := rfl

@[simp] theorem returnUnits_damper (n : Nat) (i : Instrument) :
    (returnUnits n i).damper = i.damper := rfl

@[simp] theorem returnUnits_shift (n : Nat) (i : Instrument) :
    (returnUnits n i).shift = i.shift := rfl

@[simp] theorem returnUnits_pedalDropped (n : Nat) (i : Instrument) :
    (returnUnits n i).pedalDropped = i.pedalDropped := rfl

@[simp] theorem returnUnits_monitor (n : Nat) (i : Instrument) :
    (returnUnits n i).monitor = i.monitor := rfl

@[simp] theorem returnUnits_damperDown (n : Nat) (i : Instrument) :
    (returnUnits n i).damperDown = i.damperDown := rfl

@[simp] theorem returnUnits_waitList (n : Nat) (i : Instrument) :
    (returnUnits n i).waitList = i.waitList := rfl

@[simp] theorem returnUnits_noticesA (n : Nat) (i : Instrument) :
    (returnUnits n i).noticesA = i.noticesA := rfl

@[simp] theorem returnUnits_noticesB (n : Nat) (i : Instrument) :
    (returnUnits n i).noticesB = i.noticesB := rfl

@[simp] theorem returnUnits_unitsInUse (n : Nat) (i : Instrument) :
    (returnUnits n i).unitsInUse = i.unitsInUse - n := rfl

/-! ### raiseBoth -/

@[simp] theorem raiseBoth_keys (k : NoticeKind) (i : Instrument) :
    (raiseBoth k i).keys = i.keys := rfl

@[simp] theorem raiseBoth_accepted (k : NoticeKind) (i : Instrument) :
    (raiseBoth k i).accepted = i.accepted := rfl

@[simp] theorem raiseBoth_fired (k : NoticeKind) (i : Instrument) :
    (raiseBoth k i).fired = i.fired := rfl

@[simp] theorem raiseBoth_merged (k : NoticeKind) (i : Instrument) :
    (raiseBoth k i).merged = i.merged := rfl

@[simp] theorem raiseBoth_dropped (k : NoticeKind) (i : Instrument) :
    (raiseBoth k i).dropped = i.dropped := rfl

@[simp] theorem raiseBoth_discarded (k : NoticeKind) (i : Instrument) :
    (raiseBoth k i).discarded = i.discarded := rfl

@[simp] theorem raiseBoth_late (k : NoticeKind) (i : Instrument) :
    (raiseBoth k i).late = i.late := rfl

@[simp] theorem raiseBoth_cut (k : NoticeKind) (i : Instrument) :
    (raiseBoth k i).cut = i.cut := rfl

@[simp] theorem raiseBoth_shed (k : NoticeKind) (i : Instrument) :
    (raiseBoth k i).shed = i.shed := rfl

@[simp] theorem raiseBoth_earlyRelease (k : NoticeKind) (i : Instrument) :
    (raiseBoth k i).earlyRelease = i.earlyRelease := rfl

@[simp] theorem raiseBoth_damper (k : NoticeKind) (i : Instrument) :
    (raiseBoth k i).damper = i.damper := rfl

@[simp] theorem raiseBoth_shift (k : NoticeKind) (i : Instrument) :
    (raiseBoth k i).shift = i.shift := rfl

@[simp] theorem raiseBoth_pedalDropped (k : NoticeKind) (i : Instrument) :
    (raiseBoth k i).pedalDropped = i.pedalDropped := rfl

@[simp] theorem raiseBoth_monitor (k : NoticeKind) (i : Instrument) :
    (raiseBoth k i).monitor = i.monitor := rfl

@[simp] theorem raiseBoth_unitsInUse (k : NoticeKind) (i : Instrument) :
    (raiseBoth k i).unitsInUse = i.unitsInUse := rfl

@[simp] theorem raiseBoth_damperDown (k : NoticeKind) (i : Instrument) :
    (raiseBoth k i).damperDown = i.damperDown := rfl

@[simp] theorem raiseBoth_waitList (k : NoticeKind) (i : Instrument) :
    (raiseBoth k i).waitList = i.waitList := rfl

@[simp] theorem raiseBoth_noticesA (k : NoticeKind) (i : Instrument) :
    (raiseBoth k i).noticesA = i.noticesA ||| noticeBit k := rfl

@[simp] theorem raiseBoth_noticesB (k : NoticeKind) (i : Instrument) :
    (raiseBoth k i).noticesB = i.noticesB ||| noticeBit k := rfl

/-! ### raiseOn -/

@[simp] theorem raiseOn_keys (l : Link) (k : NoticeKind) (i : Instrument) :
    (raiseOn l k i).keys = i.keys := by
  cases l <;> rfl

@[simp] theorem raiseOn_accepted (l : Link) (k : NoticeKind) (i : Instrument) :
    (raiseOn l k i).accepted = i.accepted := by
  cases l <;> rfl

@[simp] theorem raiseOn_fired (l : Link) (k : NoticeKind) (i : Instrument) :
    (raiseOn l k i).fired = i.fired := by
  cases l <;> rfl

@[simp] theorem raiseOn_merged (l : Link) (k : NoticeKind) (i : Instrument) :
    (raiseOn l k i).merged = i.merged := by
  cases l <;> rfl

@[simp] theorem raiseOn_dropped (l : Link) (k : NoticeKind) (i : Instrument) :
    (raiseOn l k i).dropped = i.dropped := by
  cases l <;> rfl

@[simp] theorem raiseOn_discarded (l : Link) (k : NoticeKind) (i : Instrument) :
    (raiseOn l k i).discarded = i.discarded := by
  cases l <;> rfl

@[simp] theorem raiseOn_late (l : Link) (k : NoticeKind) (i : Instrument) :
    (raiseOn l k i).late = i.late := by
  cases l <;> rfl

@[simp] theorem raiseOn_cut (l : Link) (k : NoticeKind) (i : Instrument) :
    (raiseOn l k i).cut = i.cut := by
  cases l <;> rfl

@[simp] theorem raiseOn_shed (l : Link) (k : NoticeKind) (i : Instrument) :
    (raiseOn l k i).shed = i.shed := by
  cases l <;> rfl

@[simp] theorem raiseOn_earlyRelease (l : Link) (k : NoticeKind) (i : Instrument) :
    (raiseOn l k i).earlyRelease = i.earlyRelease := by
  cases l <;> rfl

@[simp] theorem raiseOn_damper (l : Link) (k : NoticeKind) (i : Instrument) :
    (raiseOn l k i).damper = i.damper := by
  cases l <;> rfl

@[simp] theorem raiseOn_shift (l : Link) (k : NoticeKind) (i : Instrument) :
    (raiseOn l k i).shift = i.shift := by
  cases l <;> rfl

@[simp] theorem raiseOn_pedalDropped (l : Link) (k : NoticeKind) (i : Instrument) :
    (raiseOn l k i).pedalDropped = i.pedalDropped := by
  cases l <;> rfl

@[simp] theorem raiseOn_monitor (l : Link) (k : NoticeKind) (i : Instrument) :
    (raiseOn l k i).monitor = i.monitor := by
  cases l <;> rfl

@[simp] theorem raiseOn_unitsInUse (l : Link) (k : NoticeKind) (i : Instrument) :
    (raiseOn l k i).unitsInUse = i.unitsInUse := by
  cases l <;> rfl

@[simp] theorem raiseOn_damperDown (l : Link) (k : NoticeKind) (i : Instrument) :
    (raiseOn l k i).damperDown = i.damperDown := by
  cases l <;> rfl

@[simp] theorem raiseOn_waitList (l : Link) (k : NoticeKind) (i : Instrument) :
    (raiseOn l k i).waitList = i.waitList := by
  cases l <;> rfl

/-! ### setPendingNotices -/

@[simp] theorem setPendingNotices_keys (l : Link) (n : Notices) (i : Instrument) :
    (setPendingNotices l n i).keys = i.keys := by
  cases l <;> rfl

@[simp] theorem setPendingNotices_accepted (l : Link) (n : Notices) (i : Instrument) :
    (setPendingNotices l n i).accepted = i.accepted := by
  cases l <;> rfl

@[simp] theorem setPendingNotices_fired (l : Link) (n : Notices) (i : Instrument) :
    (setPendingNotices l n i).fired = i.fired := by
  cases l <;> rfl

@[simp] theorem setPendingNotices_merged (l : Link) (n : Notices) (i : Instrument) :
    (setPendingNotices l n i).merged = i.merged := by
  cases l <;> rfl

@[simp] theorem setPendingNotices_dropped (l : Link) (n : Notices) (i : Instrument) :
    (setPendingNotices l n i).dropped = i.dropped := by
  cases l <;> rfl

@[simp] theorem setPendingNotices_discarded (l : Link) (n : Notices) (i : Instrument) :
    (setPendingNotices l n i).discarded = i.discarded := by
  cases l <;> rfl

@[simp] theorem setPendingNotices_late (l : Link) (n : Notices) (i : Instrument) :
    (setPendingNotices l n i).late = i.late := by
  cases l <;> rfl

@[simp] theorem setPendingNotices_cut (l : Link) (n : Notices) (i : Instrument) :
    (setPendingNotices l n i).cut = i.cut := by
  cases l <;> rfl

@[simp] theorem setPendingNotices_shed (l : Link) (n : Notices) (i : Instrument) :
    (setPendingNotices l n i).shed = i.shed := by
  cases l <;> rfl

@[simp] theorem setPendingNotices_earlyRelease (l : Link) (n : Notices) (i : Instrument) :
    (setPendingNotices l n i).earlyRelease = i.earlyRelease := by
  cases l <;> rfl

@[simp] theorem setPendingNotices_damper (l : Link) (n : Notices) (i : Instrument) :
    (setPendingNotices l n i).damper = i.damper := by
  cases l <;> rfl

@[simp] theorem setPendingNotices_shift (l : Link) (n : Notices) (i : Instrument) :
    (setPendingNotices l n i).shift = i.shift := by
  cases l <;> rfl

@[simp] theorem setPendingNotices_pedalDropped (l : Link) (n : Notices) (i : Instrument) :
    (setPendingNotices l n i).pedalDropped = i.pedalDropped := by
  cases l <;> rfl

@[simp] theorem setPendingNotices_monitor (l : Link) (n : Notices) (i : Instrument) :
    (setPendingNotices l n i).monitor = i.monitor := by
  cases l <;> rfl

@[simp] theorem setPendingNotices_unitsInUse (l : Link) (n : Notices) (i : Instrument) :
    (setPendingNotices l n i).unitsInUse = i.unitsInUse := by
  cases l <;> rfl

@[simp] theorem setPendingNotices_damperDown (l : Link) (n : Notices) (i : Instrument) :
    (setPendingNotices l n i).damperDown = i.damperDown := by
  cases l <;> rfl

@[simp] theorem setPendingNotices_waitList (l : Link) (n : Notices) (i : Instrument) :
    (setPendingNotices l n i).waitList = i.waitList := by
  cases l <;> rfl

@[simp] theorem setPendingNotices_pending (l : Link) (n : Notices) (i : Instrument) :
    pendingNotices l (setPendingNotices l n i) = n := by
  cases l <;> rfl

/-! ### countDiscarded -/

@[simp] theorem countDiscarded_keys (n : Nat) (i : Instrument) :
    (countDiscarded n i).keys = i.keys := rfl

@[simp] theorem countDiscarded_accepted (n : Nat) (i : Instrument) :
    (countDiscarded n i).accepted = i.accepted := rfl

@[simp] theorem countDiscarded_fired (n : Nat) (i : Instrument) :
    (countDiscarded n i).fired = i.fired := rfl

@[simp] theorem countDiscarded_merged (n : Nat) (i : Instrument) :
    (countDiscarded n i).merged = i.merged := rfl

@[simp] theorem countDiscarded_dropped (n : Nat) (i : Instrument) :
    (countDiscarded n i).dropped = i.dropped := rfl

@[simp] theorem countDiscarded_late (n : Nat) (i : Instrument) :
    (countDiscarded n i).late = i.late := rfl

@[simp] theorem countDiscarded_cut (n : Nat) (i : Instrument) :
    (countDiscarded n i).cut = i.cut := rfl

@[simp] theorem countDiscarded_shed (n : Nat) (i : Instrument) :
    (countDiscarded n i).shed = i.shed := rfl

@[simp] theorem countDiscarded_earlyRelease (n : Nat) (i : Instrument) :
    (countDiscarded n i).earlyRelease = i.earlyRelease := rfl

@[simp] theorem countDiscarded_damper (n : Nat) (i : Instrument) :
    (countDiscarded n i).damper = i.damper := rfl

@[simp] theorem countDiscarded_shift (n : Nat) (i : Instrument) :
    (countDiscarded n i).shift = i.shift := rfl

@[simp] theorem countDiscarded_pedalDropped (n : Nat) (i : Instrument) :
    (countDiscarded n i).pedalDropped = i.pedalDropped := rfl

@[simp] theorem countDiscarded_monitor (n : Nat) (i : Instrument) :
    (countDiscarded n i).monitor = i.monitor := rfl

@[simp] theorem countDiscarded_unitsInUse (n : Nat) (i : Instrument) :
    (countDiscarded n i).unitsInUse = i.unitsInUse := rfl

@[simp] theorem countDiscarded_damperDown (n : Nat) (i : Instrument) :
    (countDiscarded n i).damperDown = i.damperDown := rfl

@[simp] theorem countDiscarded_waitList (n : Nat) (i : Instrument) :
    (countDiscarded n i).waitList = i.waitList := rfl

@[simp] theorem countDiscarded_noticesA (n : Nat) (i : Instrument) :
    (countDiscarded n i).noticesA = i.noticesA := rfl

@[simp] theorem countDiscarded_noticesB (n : Nat) (i : Instrument) :
    (countDiscarded n i).noticesB = i.noticesB := rfl

@[simp] theorem countDiscarded_discarded (n : Nat) (i : Instrument) :
    (countDiscarded n i).discarded = i.discarded + BitVec.ofNat 32 n := rfl

/-! ### withdraw -/

@[simp] theorem withdraw_keys (q : Requester) (i : Instrument) :
    (withdraw q i).keys = i.keys := rfl

@[simp] theorem withdraw_accepted (q : Requester) (i : Instrument) :
    (withdraw q i).accepted = i.accepted := rfl

@[simp] theorem withdraw_fired (q : Requester) (i : Instrument) :
    (withdraw q i).fired = i.fired := rfl

@[simp] theorem withdraw_merged (q : Requester) (i : Instrument) :
    (withdraw q i).merged = i.merged := rfl

@[simp] theorem withdraw_dropped (q : Requester) (i : Instrument) :
    (withdraw q i).dropped = i.dropped := rfl

@[simp] theorem withdraw_discarded (q : Requester) (i : Instrument) :
    (withdraw q i).discarded = i.discarded := rfl

@[simp] theorem withdraw_late (q : Requester) (i : Instrument) :
    (withdraw q i).late = i.late := rfl

@[simp] theorem withdraw_cut (q : Requester) (i : Instrument) :
    (withdraw q i).cut = i.cut := rfl

@[simp] theorem withdraw_shed (q : Requester) (i : Instrument) :
    (withdraw q i).shed = i.shed := rfl

@[simp] theorem withdraw_earlyRelease (q : Requester) (i : Instrument) :
    (withdraw q i).earlyRelease = i.earlyRelease := rfl

@[simp] theorem withdraw_damper (q : Requester) (i : Instrument) :
    (withdraw q i).damper = i.damper := rfl

@[simp] theorem withdraw_shift (q : Requester) (i : Instrument) :
    (withdraw q i).shift = i.shift := rfl

@[simp] theorem withdraw_pedalDropped (q : Requester) (i : Instrument) :
    (withdraw q i).pedalDropped = i.pedalDropped := rfl

@[simp] theorem withdraw_monitor (q : Requester) (i : Instrument) :
    (withdraw q i).monitor = i.monitor := rfl

@[simp] theorem withdraw_unitsInUse (q : Requester) (i : Instrument) :
    (withdraw q i).unitsInUse = i.unitsInUse := rfl

@[simp] theorem withdraw_damperDown (q : Requester) (i : Instrument) :
    (withdraw q i).damperDown = i.damperDown := rfl

@[simp] theorem withdraw_noticesA (q : Requester) (i : Instrument) :
    (withdraw q i).noticesA = i.noticesA := rfl

@[simp] theorem withdraw_noticesB (q : Requester) (i : Instrument) :
    (withdraw q i).noticesB = i.noticesB := rfl

@[simp] theorem withdraw_waitList (q : Requester) (i : Instrument) :
    (withdraw q i).waitList = i.waitList.filter fun e => decide (e.requester ≠ q) := rfl

/-! ### placeRequest -/

@[simp] theorem placeRequest_keys (m : Moment) (q : Requester) (i : Instrument) :
    (placeRequest m q i).keys = i.keys := rfl

@[simp] theorem placeRequest_accepted (m : Moment) (q : Requester) (i : Instrument) :
    (placeRequest m q i).accepted = i.accepted := rfl

@[simp] theorem placeRequest_fired (m : Moment) (q : Requester) (i : Instrument) :
    (placeRequest m q i).fired = i.fired := rfl

@[simp] theorem placeRequest_merged (m : Moment) (q : Requester) (i : Instrument) :
    (placeRequest m q i).merged = i.merged := rfl

@[simp] theorem placeRequest_dropped (m : Moment) (q : Requester) (i : Instrument) :
    (placeRequest m q i).dropped = i.dropped := rfl

@[simp] theorem placeRequest_discarded (m : Moment) (q : Requester) (i : Instrument) :
    (placeRequest m q i).discarded = i.discarded := rfl

@[simp] theorem placeRequest_late (m : Moment) (q : Requester) (i : Instrument) :
    (placeRequest m q i).late = i.late := rfl

@[simp] theorem placeRequest_cut (m : Moment) (q : Requester) (i : Instrument) :
    (placeRequest m q i).cut = i.cut := rfl

@[simp] theorem placeRequest_shed (m : Moment) (q : Requester) (i : Instrument) :
    (placeRequest m q i).shed = i.shed := rfl

@[simp] theorem placeRequest_earlyRelease (m : Moment) (q : Requester) (i : Instrument) :
    (placeRequest m q i).earlyRelease = i.earlyRelease := rfl

@[simp] theorem placeRequest_damper (m : Moment) (q : Requester) (i : Instrument) :
    (placeRequest m q i).damper = i.damper := rfl

@[simp] theorem placeRequest_shift (m : Moment) (q : Requester) (i : Instrument) :
    (placeRequest m q i).shift = i.shift := rfl

@[simp] theorem placeRequest_pedalDropped (m : Moment) (q : Requester) (i : Instrument) :
    (placeRequest m q i).pedalDropped = i.pedalDropped := rfl

@[simp] theorem placeRequest_monitor (m : Moment) (q : Requester) (i : Instrument) :
    (placeRequest m q i).monitor = i.monitor := rfl

@[simp] theorem placeRequest_unitsInUse (m : Moment) (q : Requester) (i : Instrument) :
    (placeRequest m q i).unitsInUse = i.unitsInUse := rfl

@[simp] theorem placeRequest_damperDown (m : Moment) (q : Requester) (i : Instrument) :
    (placeRequest m q i).damperDown = i.damperDown := rfl

@[simp] theorem placeRequest_noticesA (m : Moment) (q : Requester) (i : Instrument) :
    (placeRequest m q i).noticesA = i.noticesA := rfl

@[simp] theorem placeRequest_noticesB (m : Moment) (q : Requester) (i : Instrument) :
    (placeRequest m q i).noticesB = i.noticesB := rfl

@[simp] theorem placeRequest_waitList (m : Moment) (q : Requester) (i : Instrument) :
    (placeRequest m q i).waitList = insertWait ⟨q, m.now, m.now + m.map.supply.lateLimit * 1000⟩ i.waitList := rfl

/-! ### offer -/

@[simp] theorem offer_up (x : Item) (r : LinkRecord) :
    (offer x r).up = r.up := by
  unfold offer
  split <;> rfl

@[simp] theorem offer_rate (x : Item) (r : LinkRecord) :
    (offer x r).rate = r.rate := by
  unfold offer
  split <;> rfl

@[simp] theorem offer_receiver (x : Item) (r : LinkRecord) :
    (offer x r).receiver = r.receiver := by
  unfold offer
  split <;> rfl

@[simp] theorem offer_breakArmed (x : Item) (r : LinkRecord) :
    (offer x r).breakArmed = r.breakArmed := by
  unfold offer
  split <;> rfl

@[simp] theorem offer_transmitQueue (x : Item) (r : LinkRecord) :
    (offer x r).transmitQueue = r.transmitQueue := by
  unfold offer
  split <;> rfl

@[simp] theorem offer_sending (x : Item) (r : LinkRecord) :
    (offer x r).sending = r.sending := by
  unfold offer
  split <;> rfl

@[simp] theorem offer_mask (x : Item) (r : LinkRecord) :
    (offer x r).mask = r.mask := by
  unfold offer
  split <;> rfl

@[simp] theorem offer_stray (x : Item) (r : LinkRecord) :
    (offer x r).stray = r.stray := by
  unfold offer
  split <;> rfl

@[simp] theorem offer_lineHigh (x : Item) (r : LinkRecord) :
    (offer x r).lineHigh = r.lineHigh := by
  unfold offer
  split <;> rfl

@[simp] theorem offer_due (x : Item) (r : LinkRecord) :
    (offer x r).due = r.due := by
  unfold offer
  split <;> rfl

/-! ### startTransmission -/

@[simp] theorem startTransmission_up  (r : LinkRecord) :
    (startTransmission r).up = r.up := by
  unfold startTransmission
  split <;> rfl

@[simp] theorem startTransmission_rate  (r : LinkRecord) :
    (startTransmission r).rate = r.rate := by
  unfold startTransmission
  split <;> rfl

@[simp] theorem startTransmission_receiver  (r : LinkRecord) :
    (startTransmission r).receiver = r.receiver := by
  unfold startTransmission
  split <;> rfl

@[simp] theorem startTransmission_breakArmed  (r : LinkRecord) :
    (startTransmission r).breakArmed = r.breakArmed := by
  unfold startTransmission
  split <;> rfl

@[simp] theorem startTransmission_slots  (r : LinkRecord) :
    (startTransmission r).slots = r.slots := by
  unfold startTransmission
  split <;> rfl

@[simp] theorem startTransmission_mask  (r : LinkRecord) :
    (startTransmission r).mask = r.mask := by
  unfold startTransmission
  split <;> rfl

@[simp] theorem startTransmission_frameError  (r : LinkRecord) :
    (startTransmission r).frameError = r.frameError := by
  unfold startTransmission
  split <;> rfl

@[simp] theorem startTransmission_overrun  (r : LinkRecord) :
    (startTransmission r).overrun = r.overrun := by
  unfold startTransmission
  split <;> rfl

@[simp] theorem startTransmission_stray  (r : LinkRecord) :
    (startTransmission r).stray = r.stray := by
  unfold startTransmission
  split <;> rfl

@[simp] theorem startTransmission_lineHigh  (r : LinkRecord) :
    (startTransmission r).lineHigh = r.lineHigh := by
  unfold startTransmission
  split <;> rfl

@[simp] theorem startTransmission_due  (r : LinkRecord) :
    (startTransmission r).due = r.due := by
  unfold startTransmission
  split <;> rfl

/-! ### answer -/

@[simp] theorem answer_up (m : Message) (a : Option AfterAction) (r : LinkRecord) :
    (answer m a r).up = r.up := by
  simp [answer]

@[simp] theorem answer_rate (m : Message) (a : Option AfterAction) (r : LinkRecord) :
    (answer m a r).rate = r.rate := by
  simp [answer]

@[simp] theorem answer_receiver (m : Message) (a : Option AfterAction) (r : LinkRecord) :
    (answer m a r).receiver = r.receiver := by
  simp [answer]

@[simp] theorem answer_breakArmed (m : Message) (a : Option AfterAction) (r : LinkRecord) :
    (answer m a r).breakArmed = r.breakArmed := by
  simp [answer]

@[simp] theorem answer_mask (m : Message) (a : Option AfterAction) (r : LinkRecord) :
    (answer m a r).mask = r.mask := by
  simp [answer]

@[simp] theorem answer_frameError (m : Message) (a : Option AfterAction) (r : LinkRecord) :
    (answer m a r).frameError = r.frameError := by
  simp [answer]

@[simp] theorem answer_overrun (m : Message) (a : Option AfterAction) (r : LinkRecord) :
    (answer m a r).overrun = r.overrun := by
  simp [answer]

@[simp] theorem answer_stray (m : Message) (a : Option AfterAction) (r : LinkRecord) :
    (answer m a r).stray = r.stray := by
  simp [answer]

@[simp] theorem answer_lineHigh (m : Message) (a : Option AfterAction) (r : LinkRecord) :
    (answer m a r).lineHigh = r.lineHigh := by
  simp [answer]

@[simp] theorem answer_due (m : Message) (a : Option AfterAction) (r : LinkRecord) :
    (answer m a r).due = r.due := by
  simp [answer]

@[simp] theorem answer_slots (m : Message) (a : Option AfterAction) (r : LinkRecord) :
    (answer m a r).slots = markAnswered a r.slots := by
  simp [answer]

/-! ### discard -/

@[simp] theorem discard_up (x : DiscardReason) (n : Receiver) (r : LinkRecord) :
    (discard x n r).up = r.up := by
  simp [discard]

@[simp] theorem discard_rate (x : DiscardReason) (n : Receiver) (r : LinkRecord) :
    (discard x n r).rate = r.rate := by
  simp [discard]

@[simp] theorem discard_breakArmed (x : DiscardReason) (n : Receiver) (r : LinkRecord) :
    (discard x n r).breakArmed = r.breakArmed := by
  simp [discard]

@[simp] theorem discard_transmitQueue (x : DiscardReason) (n : Receiver) (r : LinkRecord) :
    (discard x n r).transmitQueue = r.transmitQueue := by
  simp [discard]

@[simp] theorem discard_sending (x : DiscardReason) (n : Receiver) (r : LinkRecord) :
    (discard x n r).sending = r.sending := by
  simp [discard]

@[simp] theorem discard_mask (x : DiscardReason) (n : Receiver) (r : LinkRecord) :
    (discard x n r).mask = r.mask := by
  simp [discard]

@[simp] theorem discard_stray (x : DiscardReason) (n : Receiver) (r : LinkRecord) :
    (discard x n r).stray = r.stray := by
  simp [discard]

@[simp] theorem discard_lineHigh (x : DiscardReason) (n : Receiver) (r : LinkRecord) :
    (discard x n r).lineHigh = r.lineHigh := by
  simp [discard]

@[simp] theorem discard_due (x : DiscardReason) (n : Receiver) (r : LinkRecord) :
    (discard x n r).due = r.due := by
  simp [discard]

@[simp] theorem discard_receiver (x : DiscardReason) (n : Receiver) (r : LinkRecord) :
    (discard x n r).receiver = n := by
  simp [discard]

end Sys2Proof.Machine
end

