-- ==== Sys2Proof/Laws/Budget.lean ====
section
/-! SUPPORT. What a grant pass can do: the move by which it goes on, what each move keeps, and that it runs to its end (R141). -/

namespace Sys2Proof.Machine

/-! ### The holders of a charge -/

/-- How many keys are in HOLD. -/
def heldKeys (i : Instrument) : Nat := allKeys.countP fun k => decide (i.keys[k].state = .hold)

theorem heldKeys_le (i : Instrument) : heldKeys i ≤ 88 := by
  refine Nat.le_trans List.countP_le_length ?_
  simp [allKeys]

/-- The key that a shed takes is in HOLD. -/
theorem oldestHold_state {i : Instrument} {k : Key} (h : oldestHold i = some k) : i.keys[k].state = .hold := by
  have key : ∀ (l : List Key) (best : Option Key), (∀ b, best = some b → i.keys[b].state = .hold) →
      ∀ b, l.foldl (fun best k =>
        if i.keys[k].state = .hold then
          match best with
          | none => some k
          | some b => if (i.keys[k].holdStart.getD 0) < (i.keys[b].holdStart.getD 0) then some k else best
        else best) best = some b → i.keys[b].state = .hold := by
    intro l
    induction l with
    | nil => intro best hb b h; exact hb b h
    | cons x rest ih =>
      intro best hb
      refine ih _ ?_
      intro b h
      dsimp only at h
      split at h
      · next hx =>
        split at h
        · obtain rfl := Option.some.inj h; exact hx
        · next b' =>
          split at h
          · obtain rfl := Option.some.inj h; exact hx
          · exact hb b h
      · exact hb b h
  exact key allKeys none (by simp) k h

/-- Where no key is in HOLD there is none to shed, and where one is there is. -/
theorem oldestHold_none {i : Instrument} : oldestHold i = none ↔ ∀ k : Key, i.keys[k].state ≠ .hold := by
  have key : ∀ (l : List Key) (best : Option Key),
      l.foldl (fun best k =>
        if i.keys[k].state = .hold then
          match best with
          | none => some k
          | some b => if (i.keys[k].holdStart.getD 0) < (i.keys[b].holdStart.getD 0) then some k else best
        else best) best = none ↔ best = none ∧ ∀ k ∈ l, i.keys[k].state ≠ .hold := by
    intro l
    induction l with
    | nil => intro best; simp
    | cons x rest ih =>
      intro best
      refine (ih _).trans ?_
      by_cases hx : i.keys[x].state = .hold
      · cases best with
        | none => simp
        | some b => simp only [hx, if_true, List.mem_cons, forall_eq_or_imp]; split <;> simp
      · simp only [hx, if_false, List.mem_cons, forall_eq_or_imp, ne_eq, not_false_iff, true_and]
  refine (key allKeys none).trans ?_
  simp [allKeys]

/-! ### Every key -/

/-- What is done at every key keeps what it keeps at each. -/
theorem forKeys_induct {P : Instrument → Prop} {f : Key → Instrument → Instrument} (h : ∀ k i, P i → P (f k i))
    {i : Instrument} (hi : P i) : P (forKeys f i) := by
  have key : ∀ (l : List Key) (i : Instrument), P i → P (l.foldl (fun acc k => f k acc) i) := by
    intro l
    induction l with
    | nil => intro i hi; exact hi
    | cons k rest ih => intro i hi; exact ih _ (h k i hi)
  exact key allKeys i hi

/-- What is done at every key brings about at each key what it brings about there and takes away nowhere. -/
theorem forKeys_each {Q : Key → Instrument → Prop} {f : Key → Instrument → Instrument}
    (hmake : ∀ k i, Q k (f k i)) (hkeep : ∀ k j i, Q k i → Q k (f j i)) (i : Instrument) (k : Key) :
    Q k (forKeys f i) := by
  have key : ∀ (l : List Key) (i : Instrument), (Q k i ∨ k ∈ l) → Q k (l.foldl (fun acc k => f k acc) i) := by
    intro l
    induction l with
    | nil => intro i h; exact h.resolve_right (by simp)
    | cons j rest ih =>
      intro i h
      refine ih _ ?_
      rcases h with h | h
      · exact Or.inl (hkeep k j i h)
      · rcases List.mem_cons.1 h with rfl | h
        · exact Or.inl (hmake k i)
        · exact Or.inr h
  exact key allKeys i (Or.inr (by simp [allKeys]))

/-! ### The moves of a pass -/

/-- What a move of a pass is: a shed of a key in HOLD, or the grant of a head that fits (R141). -/
theorem passMove_cases {m : Moment} {i i' : Instrument} (h : passMove m i = some i') :
    (∃ k, i.damperDown = true ∧ i.keys[k].state = .hold ∧ i' = shedKey m k i)
      ∨ ∃ e rest, i.waitList = e :: rest ∧ i.unitsInUse + e.requester.cost ≤ i.effective m.map
          ∧ i' = grant m e { i with waitList := rest } := by
  have shed : shedOne m i = some i' →
      ∃ k, i.damperDown = true ∧ i.keys[k].state = .hold ∧ i' = shedKey m k i := by
    unfold shedOne
    split
    · next hd =>
      intro h
      obtain ⟨k, hk, rfl⟩ := Option.map_eq_some_iff.1 h
      exact ⟨k, hd, oldestHold_state hk, rfl⟩
    · intro h; exact absurd h (by simp)
  unfold passMove at h
  split at h
  · exact Or.inl (shed h)
  · split at h
    · exact absurd h (by simp)
    · next e rest hw =>
      split at h
      · next hf => exact Or.inr ⟨e, rest, hw, hf, (Option.some.inj h).symm⟩
      · exact Or.inl (shed h)

/-- What a property of the instrument needs to hold after a pass: each move keeps it. -/
theorem pass_induct {m : Moment} {P : Instrument → Prop} (hs : ∀ i k, P i → i.damperDown = true →
      i.keys[k].state = .hold → P (shedKey m k i))
    (hg : ∀ i e rest, P i → i.waitList = e :: rest → i.unitsInUse + e.requester.cost ≤ i.effective m.map →
      P (grant m e { i with waitList := rest }))
    {i : Instrument} (h : P i) : P (pass m i) := by
  have key : ∀ n i, P i → P (passMoves m n i) := by
    intro n
    induction n with
    | zero => intro i h; exact h
    | succ n ih =>
      intro i h
      unfold passMoves
      split
      · exact h
      · next i' hm =>
        refine ih i' ?_
        rcases passMove_cases hm with ⟨k, hd, hk, rfl⟩ | ⟨e, rest, hw, hf, rfl⟩
        · exact hs i k h hd hk
        · exact hg i e rest h hw hf
  exact key _ i h

/-- A pass that has no move changes nothing. -/
theorem pass_of_none {m : Moment} {i : Instrument} (h : passMove m i = none) : pass m i = i := by
  unfold pass
  cases i.waitList.length + 88 with
  | zero => rfl
  | succ n => simp [passMoves, h]

/-- With nothing waiting and no units over the effective capacity a pass has no move. -/
theorem pass_of_idle {m : Moment} {i : Instrument} (hw : i.waitList = [])
    (hu : i.unitsInUse ≤ i.effective m.map) : pass m i = i :=
  pass_of_none (by simp [passMove, hw, Nat.not_lt.2 hu])

/-! ### What a grant keeps -/

theorem shedKey_waitList (m : Moment) (k : Key) (i : Instrument) : (shedKey m k i).waitList = i.waitList := rfl

/-- The shed key is out of HOLD, and every other key keeps its state. -/
theorem shedKey_state (m : Moment) (k j : Key) (i : Instrument) :
    (shedKey m k i).keys[j].state = if k = j then .shed else i.keys[j].state := by
  simp only [shedKey, setKey, returnUnits, KeyRecord.switchOff]
  by_cases h : k = j
  · subst h; simp
  · have h' : k.val ≠ j.val := fun hc => h (Fin.ext hc)
    simp [h, h']

/-- A grant leaves the wait list, which its entry has left already. -/
@[simp] theorem grant_waitList (m : Moment) (e : WaitEntry) (i : Instrument) :
    (grant m e i).waitList = i.waitList := by
  unfold grant
  split
  · unfold grantKey; dsimp only; split <;> (try split) <;> simp [raiseBoth, setKey]
  · next p _ => unfold grantPedal; dsimp only; split <;> cases p <;> simp [enterDown, setPedal, returnUnits]

/-- A grant takes no key into HOLD. -/
theorem grant_hold {m : Moment} {e : WaitEntry} {i : Instrument} {j : Key}
    (h : (grant m e i).keys[j].state = .hold) : i.keys[j].state = .hold := by
  unfold grant at h
  split at h
  · next k _ =>
    unfold grantKey at h
    dsimp only at h
    split at h
    · exact h
    · by_cases hk : k = j
      · subst hk; split at h <;> simp [raiseBoth, setKey] at h
      · have h' : k.val ≠ j.val := fun hc => hk (Fin.ext hc)
        split at h <;> simpa [raiseBoth, setKey, h'] using h
  · next p _ =>
    unfold grantPedal at h
    dsimp only at h
    split at h <;> cases p <;> simpa [enterDown, setPedal, returnUnits] using h

/-- A move takes an entry from the list, or a key out of HOLD. -/
theorem passMove_less {m : Moment} {i i' : Instrument} (h : passMove m i = some i') :
    i'.waitList.length + heldKeys i' < i.waitList.length + heldKeys i := by
  rcases passMove_cases h with ⟨k, _, hk, rfl⟩ | ⟨e, rest, hw, _, rfl⟩
  · rw [shedKey_waitList]
    refine Nat.add_lt_add_left ?_ _
    have hle : ∀ l : List Key, l.countP (fun j => decide ((shedKey m k i).keys[j].state = .hold))
        ≤ l.countP fun j => decide (i.keys[j].state = .hold) := by
      intro l
      refine List.countP_mono_left fun j _ hj => ?_
      rw [shedKey_state] at hj
      split at hj
      · simp at hj
      · exact hj
    have hlt : ∀ l : List Key, k ∈ l → l.countP (fun j => decide ((shedKey m k i).keys[j].state = .hold))
        < l.countP fun j => decide (i.keys[j].state = .hold) := by
      intro l
      induction l with
      | nil => simp
      | cons x rest ih =>
        intro hm
        by_cases hx : k = x
        · subst hx
          have h1 := hle rest
          have h2 : (shedKey m k i).keys[k].state = .shed := by rw [shedKey_state, if_pos rfl]
          rw [List.countP_cons_of_neg (by rw [h2]; decide), List.countP_cons_of_pos (by rw [hk]; decide)]
          exact Nat.lt_succ_of_le h1
        · have h2 := ih ((List.mem_cons.1 hm).resolve_left hx)
          simp only [List.countP_cons, shedKey_state, if_neg hx]
          simp only [shedKey_state] at h2
          omega
    exact hlt allKeys (by simp [allKeys])
  · rw [grant_waitList, hw]
    have : heldKeys (grant m e { i with waitList := rest }) ≤ heldKeys i := by
      refine List.countP_mono_left fun j _ hj => ?_
      have := grant_hold (of_decide_eq_true hj)
      simpa using this
    simp only [List.length_cons]
    omega

/-- A pass runs until it has no move (R141). -/
theorem pass_ends (m : Moment) (i : Instrument) : passMove m (pass m i) = none := by
  have key : ∀ n i, i.waitList.length + heldKeys i ≤ n → passMove m (passMoves m n i) = none := by
    intro n
    induction n with
    | zero =>
      intro i h
      cases hm : passMove m i with
      | none => exact hm
      | some i' => exact absurd (passMove_less hm) (by omega)
    | succ n ih =>
      intro i h
      unfold passMoves
      split
      · assumption
      · next i' hm => exact ih i' (by have := passMove_less hm; omega)
  exact key _ i (Nat.add_le_add_left (heldKeys_le i) _)

/-- A pass that has a move goes on as the pass after it (R141). -/
theorem pass_of_move {m : Moment} {i i' : Instrument} (h : passMove m i = some i') : pass m i = pass m i' := by
  have key : ∀ n n' i, i.waitList.length + heldKeys i ≤ n → n ≤ n' → passMoves m n' i = passMoves m n i := by
    intro n
    induction n with
    | zero =>
      intro n' i hi _
      cases n' with
      | zero => rfl
      | succ n' =>
        cases hm : passMove m i with
        | none => simp [passMoves, hm]
        | some i' => exact absurd (passMove_less hm) (by omega)
    | succ n ih =>
      intro n' i hi hn
      obtain ⟨k, rfl⟩ : ∃ k, n' = k + 1 := ⟨n' - 1, by omega⟩
      cases hm : passMove m i with
      | none => simp [passMoves, hm]
      | some i' => simp only [passMoves, hm]; exact ih k i' (by have := passMove_less hm; omega) (by omega)
  have hl := passMove_less h
  have hk := heldKeys_le i
  have hk' := heldKeys_le i'
  have h1 : pass m i = passMoves m (i.waitList.length + 87) i' := by
    unfold pass
    rw [show i.waitList.length + 88 = (i.waitList.length + 87) + 1 from rfl]
    simp only [passMoves, h]
  rw [h1]
  unfold pass
  rw [key (i'.waitList.length + heldKeys i') (i.waitList.length + 87) i' (Nat.le_refl _) (by omega),
    key (i'.waitList.length + heldKeys i') (i'.waitList.length + 88) i' (Nat.le_refl _) (by omega)]

/-- The key to shed holds longest, and is the lowest of those that hold as long (R143). -/
theorem oldestHold_oldest {i : Instrument} {k : Key} (h : oldestHold i = some k) (j : Key) (hj : i.keys[j].state = .hold) :
    i.keys[k].holdStart.getD 0 < i.keys[j].holdStart.getD 0
      ∨ (i.keys[k].holdStart.getD 0 = i.keys[j].holdStart.getD 0 ∧ k ≤ j) := by
  let start (k : Key) : Nat := i.keys[k].holdStart.getD 0
  let first (k j : Key) : Prop := start k < start j ∨ (start k = start j ∧ k ≤ j)
  let pick (best : Option Key) (k : Key) : Option Key :=
    if i.keys[k].state = .hold then
      match best with
      | none => some k
      | some b => if start k < start b then some k else best
    else best
  have pickHold : ∀ b x, i.keys[x].state = .hold → pick (some b) x = if start x < start b then some x else some b := by
    intro b x h; show (if i.keys[x].state = .hold then _ else _) = _; rw [if_pos h]
  have pickNone : ∀ x, i.keys[x].state = .hold → pick none x = some x := by
    intro x h; show (if i.keys[x].state = .hold then _ else _) = _; rw [if_pos h]
  have pickNot : ∀ best x, ¬ i.keys[x].state = .hold → pick best x = best := by
    intro best x h; show (if i.keys[x].state = .hold then _ else _) = _; rw [if_neg h]
  have key : ∀ (l : List Key) (best : Option Key), l.Pairwise (· < ·) → (∀ b, best = some b → ∀ x ∈ l, b < x) →
      ∀ k, l.foldl pick best = some k →
        (∀ b, best = some b → first k b) ∧ ∀ x ∈ l, i.keys[x].state = .hold → first k x := by
    intro l
    induction l with
    | nil =>
      intro best _ _ k hk
      exact ⟨fun b hb => by rw [hb] at hk; cases hk; exact Or.inr ⟨rfl, Nat.le_refl _⟩, by simp⟩
    | cons x rest ih =>
      intro best hs hb k hk
      obtain ⟨hx, hs⟩ := List.pairwise_cons.1 hs
      have trans : ∀ a b c, first a b → first b c → first a c := by
        intro a b c h1 h2; simp only [first, Fin.le_def] at *; omega
      have hlt : ∀ b, pick best x = some b → ∀ y ∈ rest, b < y := by
        intro b hb' y hy
        have : b = x ∨ best = some b := by
          simp only [pick] at hb'
          split at hb'
          · split at hb'
            · left; exact (Option.some.inj hb').symm
            · split at hb'
              · left; exact (Option.some.inj hb').symm
              · right; exact hb'
          · right; exact hb'
        rcases this with rfl | h
        · exact hx y hy
        · exact hb b h y (List.mem_cons_of_mem _ hy)
      obtain ⟨h1, h2⟩ := ih (pick best x) hs hlt k hk
      refine ⟨?_, ?_⟩
      · intro b hbb
        subst hbb
        by_cases hh : i.keys[x].state = .hold
        · by_cases hl : start x < start b
          · exact trans k x b (h1 x (by rw [pickHold b x hh, if_pos hl])) (Or.inl hl)
          · exact h1 b (by rw [pickHold b x hh, if_neg hl])
        · exact h1 b (pickNot _ x hh)
      · intro y hy hh
        rcases List.mem_cons.1 hy with rfl | hy
        · cases hbest : best with
          | none => exact h1 y (by rw [hbest]; exact pickNone y hh)
          | some b =>
            by_cases hl : start y < start b
            · exact h1 y (by rw [hbest, pickHold b y hh, if_pos hl])
            · refine trans k b y (h1 b (by rw [hbest, pickHold b y hh, if_neg hl])) ?_
              have := hb b hbest y (List.mem_cons_self ..)
              simp only [first, Fin.le_def, Fin.lt_def] at *; omega
        · exact h2 y hy hh
  have hp : allKeys.Pairwise (· < ·) := by unfold allKeys; exact List.pairwise_lt_finRange 88
  exact (key allKeys none hp (by simp) k h).2 j (by simp [allKeys]) hj

/-- The place of an entry in the wait list: past every entry it does not stand before, and ahead of the next (R140). -/
theorem insertWait_split (e : WaitEntry) (l : List WaitEntry) :
    ∃ front back, l = front ++ back ∧ insertWait e l = front ++ e :: back
      ∧ (∀ y ∈ front, e.before y = false) ∧ ∀ y ∈ back.head?, e.before y = true := by
  induction l with
  | nil => exact ⟨[], [], rfl, rfl, by simp, by simp⟩
  | cons x rest ih =>
    unfold insertWait
    split
    · next h => exact ⟨[], x :: rest, rfl, rfl, by simp, by simp [h]⟩
    · next h =>
      obtain ⟨f, b, h1, h2, h3, h4⟩ := ih
      exact ⟨x :: f, b, by simp [h1], by simp [h2], by simpa [h] using h3, h4⟩

/-! ### What a pass keeps -/

/-- A pass keeps every field that a shed and a grant keep. -/
theorem pass_keeps {α : Type} (f : Instrument → α) {m : Moment} (hs : ∀ k i, f (shedKey m k i) = f i)
    (hg : ∀ e i, f (grant m e i) = f i) (hw : ∀ l i, f { i with waitList := l } = f i) (i : Instrument) :
    f (pass m i) = f i :=
  pass_induct (P := fun j => f j = f i) (fun j k h _ _ => (hs k j).trans h)
    (fun j e rest h _ _ => ((hg e _).trans (hw rest j)).trans h) rfl

/-- A grant leaves the counters of strikes that arrive and are lost, and the monitor level. -/
theorem grant_frame (m : Moment) (e : WaitEntry) (i : Instrument) :
    (grant m e i).accepted = i.accepted ∧ (grant m e i).merged = i.merged ∧ (grant m e i).dropped = i.dropped
      ∧ (grant m e i).discarded = i.discarded ∧ (grant m e i).monitor = i.monitor := by
  unfold grant
  split
  · unfold grantKey; dsimp only; split <;> (try split) <;> simp
  · next p _ => unfold grantPedal; dsimp only; split <;> cases p <;> simp [enterDown]

@[simp] theorem grant_accepted (m : Moment) (e : WaitEntry) (i : Instrument) :
    (grant m e i).accepted = i.accepted :=
  (grant_frame m e i).1

@[simp] theorem grant_merged (m : Moment) (e : WaitEntry) (i : Instrument) : (grant m e i).merged = i.merged :=
  (grant_frame m e i).2.1

@[simp] theorem grant_dropped (m : Moment) (e : WaitEntry) (i : Instrument) : (grant m e i).dropped = i.dropped :=
  (grant_frame m e i).2.2.1

@[simp] theorem grant_discarded (m : Moment) (e : WaitEntry) (i : Instrument) :
    (grant m e i).discarded = i.discarded :=
  (grant_frame m e i).2.2.2.1

@[simp] theorem grant_monitor (m : Moment) (e : WaitEntry) (i : Instrument) : (grant m e i).monitor = i.monitor :=
  (grant_frame m e i).2.2.2.2

@[simp] theorem pass_accepted (m : Moment) (i : Instrument) : (pass m i).accepted = i.accepted :=
  pass_keeps _ (fun _ _ => rfl) (grant_accepted m) (fun _ _ => rfl) i

@[simp] theorem pass_merged (m : Moment) (i : Instrument) : (pass m i).merged = i.merged :=
  pass_keeps _ (fun _ _ => rfl) (grant_merged m) (fun _ _ => rfl) i

@[simp] theorem pass_dropped (m : Moment) (i : Instrument) : (pass m i).dropped = i.dropped :=
  pass_keeps _ (fun _ _ => rfl) (grant_dropped m) (fun _ _ => rfl) i

@[simp] theorem pass_discarded (m : Moment) (i : Instrument) : (pass m i).discarded = i.discarded :=
  pass_keeps _ (fun _ _ => rfl) (grant_discarded m) (fun _ _ => rfl) i

@[simp] theorem pass_monitor (m : Moment) (i : Instrument) : (pass m i).monitor = i.monitor :=
  pass_keeps _ (fun _ _ => rfl) (grant_monitor m) (fun _ _ => rfl) i

end Sys2Proof.Machine
end

