-- ==== Sys2Proof/Laws/Detector.lean ====
section
/-! SUPPORT. What the track detector reads of a line: the edges, the measured offset, the windows, and the step of all hole
detectors (R29 to R45). -/

namespace Sys2Proof.Machine

/-! ### The edges (R29) -/

/-- A paper run of eight samples, sample by sample. -/
theorem paperRunAt_iff (line : SensorLine) (i : Nat) :
    paperRunAt line i = true ↔ ∀ j, j < 8 → line.getLsbD (i + j) = false := by
  unfold paperRunAt
  rw [beq_iff_eq]
  constructor
  · intro h j hj
    have := congrArg (fun x => x.getLsbD j) h
    simpa [BitVec.getLsbD_extractLsb', hj] using this
  · intro h
    apply BitVec.eq_of_getLsbD_eq
    intro j hj
    simp [hj, h j hj]

/-- The left edge is the first sample of the first run. -/
theorem leftEdge_iff (line : SensorLine) (e : Nat) :
    leftEdge line = some e ↔ (e < 1193 ∧ paperRunAt line e = true) ∧ ∀ i, i < e → i < 1193 → paperRunAt line i = false := by
  unfold leftEdge
  rw [List.find?_range_eq_some]
  simp only [List.mem_range, Bool.not_eq_eq_eq_not, Bool.not_true]
  constructor
  · rintro ⟨h1, h2, h3⟩; exact ⟨⟨h2, h1⟩, fun i hi _ => h3 i hi⟩
  · rintro ⟨⟨h1, h2⟩, h3⟩; exact ⟨h2, h1, fun i hi => h3 i hi (by omega)⟩

/-- The last element of a range that passes a test. -/
theorem find?_reverse_range (test : Nat → Bool) (n e : Nat) :
    (List.range n).reverse.find? test = some e ↔ (e < n ∧ test e = true) ∧ ∀ i, e < i → i < n → test i = false := by
  induction n with
  | zero => simp
  | succ n ih =>
    rw [List.range_succ, List.reverse_append]
    simp only [List.reverse_cons, List.reverse_nil, List.nil_append, List.singleton_append, List.find?_cons]
    by_cases h : test n = true
    · simp only [h]
      constructor
      · intro h'
        obtain rfl := Option.some.inj h'
        exact ⟨⟨by omega, h⟩, fun i h1 h2 => by omega⟩
      · rintro ⟨⟨h1, _⟩, h3⟩
        congr 1
        by_cases he : e = n
        · exact he.symm
        · have := h3 n (by omega) (by omega); simp [h] at this
    · simp only [Bool.not_eq_true] at h
      simp only [h, ih]
      constructor
      · rintro ⟨⟨h1, h2⟩, h3⟩
        refine ⟨⟨by omega, h2⟩, fun i h4 h5 => ?_⟩
        by_cases hi : i = n
        · rw [hi]; exact h
        · exact h3 i h4 (by omega)
      · rintro ⟨⟨h1, h2⟩, h3⟩
        refine ⟨⟨?_, h2⟩, fun i h4 h5 => h3 i h4 (by omega)⟩
        by_cases he : e = n
        · rw [he, h] at h2; cases h2
        · omega

/-- The right edge is the last sample of the last run. -/
theorem rightEdge_iff (line : SensorLine) (e : Nat) :
    rightEdge line = some e ↔ 7 ≤ e ∧ (e - 7 < 1193 ∧ paperRunAt line (e - 7) = true)
      ∧ ∀ i, e < i + 7 → i < 1193 → paperRunAt line i = false := by
  unfold rightEdge
  rw [Option.map_eq_some_iff]
  constructor
  · rintro ⟨a, h, rfl⟩
    obtain ⟨h1, h2⟩ := (find?_reverse_range _ _ _).1 h
    exact ⟨by omega, by simpa using h1, fun i h3 h4 => h2 i (by omega) h4⟩
  · rintro ⟨h0, h1, h2⟩
    exact ⟨e - 7, (find?_reverse_range _ _ _).2 ⟨h1, fun i h3 h4 => h2 i (by omega) h4⟩, by omega⟩

/-! ### The measured offset (R30) -/

/-- A line is good exactly with both edges, a width within 6 samples of the nominal one, and an offset in its range, which is then the
measured offset. -/
theorem goodOffset_iff (t : TrackerRegulation) (line : SensorLine) (measured : Int) :
    goodOffset t line = some measured ↔ ∃ left right, leftEdge line = some left ∧ rightEdge line = some right
      ∧ right + t.leftEdge ≤ left + t.rightEdge + 6 ∧ left + t.rightEdge ≤ right + t.leftEdge + 6
      ∧ measured = measuredOffset t left right ∧ -40 ≤ measured ∧ measured ≤ 40 := by
  unfold goodOffset
  constructor
  · intro h
    split at h
    · next left right hl hr =>
      dsimp only at h
      split at h
      · next hc =>
        obtain rfl := Option.some.inj h
        exact ⟨left, right, hl, hr, by omega, by omega, rfl, hc.2.2.1, hc.2.2.2⟩
      · cases h
    · cases h
  · rintro ⟨left, right, hl, hr, h1, h2, rfl, h3, h4⟩
    simp only [hl, hr]
    rw [if_pos ⟨by omega, by omega, h3, h4⟩]

/-! ### The windows (R34) -/

/-- A window counts the OPEN samples among the three at its place; a sample outside the line is PAPER. -/
theorem windowCount_eq (t : TrackerRegulation) (offset : Int) (line : SensorLine) (k : Track) :
    let centre : Int := (t.centres[k] : Int) + offset
    let sample (i : Int) : Nat := if 0 ≤ i ∧ i < 1200 ∧ line.getLsbD i.toNat = true then 1 else 0
    windowCount t offset line k = sample (centre - 1) + sample centre + sample (centre + 1) := by
  intro centre sample
  have key : ∀ i : Int, (sampleOpen line i).toNat = sample i := by
    intro i
    simp only [sampleOpen, sample]
    by_cases h0 : i < 0
    · rw [if_pos h0, if_neg (by omega)]; rfl
    · rw [if_neg h0]
      by_cases h1 : i < 1200
      · cases hb : line.getLsbD i.toNat
        · rw [if_neg (by simp)]; rfl
        · rw [if_pos ⟨by omega, h1, rfl⟩]; rfl
      · rw [BitVec.getLsbD_of_ge line i.toNat (by omega), if_neg (by omega)]; rfl
  simp only [windowCount, key]; rfl

/-! ### A whole line (R33, R35, R37, R43 to R45) -/

/-- All hole detectors take their step. -/
theorem takeSteps_readsLine (split : Nat) (f : Track → Hole → HoleStep) (d : Detector) :
    readsLine split (fun k => f k d.holes[k]) d (d.takeSteps split f) := by
  refine ⟨fun k => by simp [Detector.takeSteps], rfl, ?_⟩
  show List.filterMap _ _ = _
  congr 1; funext k; congr 1; funext e
  simp only [markAccent, isNote, accentTrack]
  congr 1
  simp only [Fin.getElem_fin, Bool.decide_and, Bool.and_assoc]
  simp

/-- Edge tracking touches the offset and the two runs alone, and a line is bad exactly where it leaves a bad-line run. -/
theorem trackEdges_keeps (t : TrackerRegulation) (line : SensorLine) (d : Detector) :
    (d.trackEdges t line).holes = d.holes ∧ (d.trackEdges t line).noise = d.noise
      ∧ (d.trackEdges t line).badLine = d.badLine
      ∧ (0 < (d.trackEdges t line).badRun ↔ goodOffset t line = none) := by
  unfold Detector.trackEdges
  cases goodOffset t line with
  | some measured => exact ⟨rfl, rfl, rfl, iff_of_false (Nat.lt_irrefl 0) (Option.some_ne_none _)⟩
  | none => exact ⟨rfl, rfl, rfl, iff_of_true (Nat.succ_pos _) rfl⟩

/-- The windows of a line read: the noise counts, and the steps of all hole detectors. -/
theorem readWindows_readsLine (map : RegulationMap) (reading : Nat) (line : SensorLine) (d : Detector) :
    let count (k : Track) : Nat := windowCount map.tracker d.appliedOffset line k
    let out := d.readWindows map reading line
    (∀ k : Track, out.1.noise[k] = if count k = 1 ∨ count k = 2 then min 65535 (d.noise[k] + 1) else d.noise[k])
      ∧ readsLine map.expression.splitKey (fun k => holeStep k reading (decide (2 ≤ count k)) d.holes[k])
        { d with noise := out.1.noise } out := by
  unfold Detector.readWindows
  dsimp only
  generalize windowCount map.tracker d.appliedOffset line = count
  have ht := takeSteps_readsLine map.expression.splitKey (fun k hole => holeStep k reading (decide (2 ≤ count k)) hole)
    { d with noise := Vector.ofFn fun k => noiseAfter d.noise[k] (count k) }
  refine ⟨fun k => ?_, ht⟩
  show (Vector.ofFn fun k => noiseAfter d.noise[k] (count k))[k] = _
  simp only [Fin.getElem_fin, Vector.getElem_ofFn]
  rfl

/-- A sensor line that does not lose the track counts BAD-LINE where it is bad, and its windows are read (R33). -/
theorem sensorLine_reads (map : RegulationMap) (reading : Nat) (line : SensorLine) (d d' : Detector)
    (hd : d.trackEdges map.tracker line = d') (h : d'.badRun < 24) :
    d.sensorLine map reading line = Detector.readWindows map reading line
      { d' with badLine := if (goodOffset map.tracker line).isSome then d.badLine else d.badLine + 1 } := by
  obtain ⟨_, _, h3, h4⟩ := trackEdges_keeps map.tracker line d
  rw [hd] at h3 h4
  have hb : d'.badLine + countIf (decide (0 < d'.badRun))
      = if (goodOffset map.tracker line).isSome then d.badLine else d.badLine + 1 := by
    simp only [h4, h3]
    cases goodOffset map.tracker line <;> simp [countIf]
  simp only [Detector.sensorLine, hd, hb]
  exact if_neg (Nat.not_le.2 h)

end Sys2Proof.Machine
end

