-- ==== Sys2Proof/Laws/KeyAction.lean ====
section
/-! SUPPORT. What a merge of strikes gives (R90), and what the cut of the keys in SHED and CRITICAL do at all 88 keys together (R108,
R112). -/

namespace Sys2Proof.Machine

/-- A merged strike has the fire time given, all contributors and the accent of either, and the larger velocity with its band and duty,
the old one's where the two are equal (R90). -/
theorem Strike.merge_eq (old new : Strike) (fire : Nat) :
    let x := old.merge new fire
    x.fire = fire ∧ x.accented = (old.accented || new.accented)
      ∧ (∀ o, x.contributors.has o = (old.contributors.has o || new.contributors.has o))
      ∧ (old.velocity < new.velocity → x.velocity = new.velocity ∧ x.band = new.band ∧ x.duty = new.duty)
      ∧ (new.velocity ≤ old.velocity → x.velocity = old.velocity ∧ x.band = old.band ∧ x.duty = old.duty) := by
  intro x
  simp only [x, Strike.merge]
  refine ⟨trivial, trivial, fun o => by cases o <;> rfl, fun h => ?_, fun h => ?_⟩
  · split
    · exact ⟨rfl, rfl, rfl⟩
    · omega
  · split
    · omega
    · exact ⟨rfl, rfl, rfl⟩

/-- A counter raised where a test holds, and then by a number, is raised by the sum. -/
theorem countIf_add (b : Bool) (n : Nat) :
    countIf b + BitVec.ofNat 32 n = BitVec.ofNat 32 ((if b then 1 else 0) + n) := by
  cases b <;> simp [countIf, BitVec.ofNat_add]

/-- A key that fails a test that passes the keys of a list is counted before them. -/
theorem length_filter_cons {α : Type} (test : α → Bool) (x : α) (l : List α) :
    ((x :: l).filter test).length = (if test x then 1 else 0) + (l.filter test).length := by
  rw [List.filter_cons]; split <;> simp [*, Nat.add_comm]

/-- The record of a key after CRITICAL (R112). -/
def KeyRecord.afterCritical (m : Moment) (k : Key) (r : KeyRecord) : KeyRecord :=
  let on := r.state = .drive ∨ r.state = .hold
  { r with
    state := if on ∨ r.state = .returning ∨ (r.state = .shed ∧ r.returnEnd.isSome = true) then .returning else .rest
    holders := ⟨false, false, false⟩
    armed := none
    pending := none
    driveEnd := none
    holdStart := none
    requestMoment := none
    returnEnd := if on then some (m.now + m.map.keys[k].returnTime * 100) else r.returnEnd
    channel := if on then r.channel.switch m.now .off else r.channel }

/-- CRITICAL at one key: its record, its three counts, and the units it returns (R112). -/
theorem criticalKeyOnly_eq (m : Moment) (k : Key) (i : Instrument) :
    criticalKeyOnly m k i = { i with
      unitsInUse := i.unitsInUse - i.keys[k].charge
      keys := i.keys.set k (i.keys[k].afterCritical m k)
      cut := i.cut + countIf (!i.keys[k].holders.isEmpty)
      dropped := i.dropped + countIf (i.keys[k].armed.isSome && decide (i.keys[k].state = .wait))
      discarded := i.discarded + countIf (i.keys[k].armed.isSome && decide (i.keys[k].state ≠ .wait))
        + countIf i.keys[k].pending.isSome } := by
  unfold criticalKeyOnly
  simp only [setKey, returnUnits, KeyRecord.afterCritical, KeyRecord.switchOff, KeyRecord.criticalState, Origins.empty]
  congr 1
  · congr 1
    cases hs : i.keys[k].state <;> simp
  · simp [BitVec.add_assoc]

/-- CRITICAL at the keys of a list with no key twice: the record of each, the counts of all, and nothing else but the units (R112). -/
theorem criticalKeys_fold (m : Moment) (l : List Key) (i : Instrument) (hn : l.Nodup) :
    let i' := l.foldl (fun acc k => criticalKeyOnly m k acc) i
    let count (test : KeyRecord → Bool) : Counter := BitVec.ofNat 32 (l.filter fun k => test i.keys[k]).length
    (∀ k : Key, i'.keys[k] = if k ∈ l then i.keys[k].afterCritical m k else i.keys[k])
      ∧ i' = { i with
        unitsInUse := i'.unitsInUse
        keys := i'.keys
        cut := i.cut + count (fun r => !r.holders.isEmpty)
        dropped := i.dropped + count (fun r => r.armed.isSome && decide (r.state = .wait))
        discarded := i.discarded + count (fun r => r.armed.isSome && decide (r.state ≠ .wait))
          + count (fun r => r.pending.isSome) } := by
  induction l generalizing i with
  | nil => refine ⟨by simp, by simp⟩
  | cons x l ih =>
    obtain ⟨hx, hn⟩ := List.nodup_cons.1 hn
    obtain ⟨h1, h2⟩ := ih (criticalKeyOnly m x i) hn
    have h0 := criticalKeyOnly_eq m x i
    have hkeys : ∀ k : Key, (criticalKeyOnly m x i).keys[k]
        = if k = x then i.keys[k].afterCritical m k else i.keys[k] := by
      intro k; rw [h0]
      by_cases hk : k = x
      · subst hk; simp
      · have : (x : Nat) ≠ k := fun hc => hk (Fin.ext hc.symm)
        simp [hk, this]
    have hfil : ∀ test : KeyRecord → Bool,
        (l.filter fun k => test (criticalKeyOnly m x i).keys[k]) = l.filter fun k => test i.keys[k] := by
      intro test
      refine List.filter_congr fun k hk => ?_
      rw [hkeys, if_neg (fun hc : k = x => hx (hc ▸ hk))]
    refine ⟨?_, ?_⟩
    · intro k
      rw [List.foldl_cons, h1 k, hkeys]
      by_cases hk : k = x
      · subst hk; simp [hx]
      · simp [hk]
    · simp only [List.foldl_cons]
      rw [h2]
      simp only [hfil (fun r => !r.holders.isEmpty), hfil (fun r => r.armed.isSome && decide (r.state = .wait)),
        hfil (fun r => r.armed.isSome && decide (r.state ≠ .wait)), hfil (fun r => r.pending.isSome),
        length_filter_cons, ← countIf_add]
      rw [h0]
      congr 1 <;> (simp only [BitVec.add_assoc])
      congr 1
      simp only [← BitVec.add_assoc]
      congr 1
      rw [BitVec.add_assoc, BitVec.add_comm (countIf i.keys[x].pending.isSome), BitVec.add_assoc]

/-- CRITICAL at all keys (R112). -/
theorem criticalKeysOnly_eq (m : Moment) (i : Instrument) :
    let i' := criticalKeysOnly m i
    let count (test : KeyRecord → Bool) : Counter := BitVec.ofNat 32 (allKeys.filter fun k => test i.keys[k]).length
    (∀ k : Key, i'.keys[k] = i.keys[k].afterCritical m k)
      ∧ i' = { i with
        unitsInUse := i'.unitsInUse
        keys := i'.keys
        cut := i.cut + count (fun r => !r.holders.isEmpty)
        dropped := i.dropped + count (fun r => r.armed.isSome && decide (r.state = .wait))
        discarded := i.discarded + count (fun r => r.armed.isSome && decide (r.state ≠ .wait))
          + count (fun r => r.pending.isSome) } := by
  obtain ⟨h1, h2⟩ := criticalKeys_fold m allKeys i (List.nodup_finRange 88)
  refine ⟨fun k => ?_, h2⟩
  have := h1 k
  rwa [if_pos (show k ∈ allKeys from List.mem_finRange k)] at this

/-- With no key in SHED the cut changes nothing (R108). -/
theorem cutShed_none {i : Instrument} (h : ∀ k : Key, i.keys[k].state ≠ .shed) : cutShed i = i := by
  unfold cutShed forKeys
  have : ∀ l : List Key, l.foldl (fun acc k => if acc.keys[k].state = .shed then raiseBoth .cut
      { setKey k
          { acc.keys[k] with
            state := if acc.keys[k].returnEnd.isSome then .returning else .rest
            holders := .empty
            holdStart := none } acc with
        cut := acc.cut + 1 } else acc) i = i := by
    intro l
    induction l with
    | nil => rfl
    | cons a l ih => rw [List.foldl_cons, if_neg (h a)]; exact ih
  exact this allKeys

end Sys2Proof.Machine
end

