-- ==== Sys2Proof/Laws/Links.lean ====
section
/-! SUPPORT. What the operations of the link controllers do, and the numbers that characters carry. -/

namespace Sys2Proof.Machine

/-! ### Slots (R192, R193) -/

/-- A free slot takes the item. -/
theorem offer_free {item : Item} {r : LinkRecord} (h : r.slots.length < 2) :
    offer item r = { r with
      slots := r.slots ++ [⟨item, false, none⟩]
      frameError := r.frameError + countIf (match item with | .discard _ _ => true | .request _ => false) } := by
  unfold offer
  exact (if_pos h).trans (by cases item <;> rfl)

/-- With both slots taken the item is lost to OVERRUN. -/
theorem offer_full {item : Item} {r : LinkRecord} (h : 2 ≤ r.slots.length) :
    offer item r = { r with overrun := r.overrun + 1, overrunFlag := true } := by
  simp only [offer, Nat.not_lt.2 h, if_false]

/-- What the discard of the message in reception leaves (R192). -/
theorem discard_eq (reason : DiscardReason) (next : Receiver) (r : LinkRecord) :
    discard reason next r = discarded reason r.receiver.kind next r := by
  unfold discard discarded offer
  split <;> rfl

/-- The slot of the item answered is the oldest with no answer. -/
theorem markAnswered_length (a : Option AfterAction) (l : List Slot) : (markAnswered a l).length = l.length := by
  induction l with
  | nil => rfl
  | cons x rest ih => unfold markAnswered; split <;> simp [ih]

/-- With no transmission begun the answer leaves nothing but its slot and its place in the queue. -/
theorem startTransmission_busy {r : LinkRecord} (h : r.sending ≠ none ∨ r.due ≠ []) : startTransmission r = r := by
  unfold startTransmission
  split
  · next h1 h2 _ => rcases h with h | h <;> contradiction
  · rfl

/-! ### Numbers in characters (Section 10.7) -/

@[simp] theorem leBytes_length (n v : Nat) : (leBytes n v).length = n := by
  induction n generalizing v with
  | zero => rfl
  | succ n ih => simp [leBytes, ih]

/-- The characters of a number read back as the number. -/
theorem leNat_leBytes (n v : Nat) : leNat (leBytes n v) = v % 256 ^ n := by
  induction n generalizing v with
  | zero => simp [leBytes, leNat, Nat.mod_one]
  | succ n ih =>
    simp only [leBytes, leNat, ih, BitVec.toNat_ofNat]
    rw [show 256 ^ (n + 1) = 256 * 256 ^ n from Nat.pow_succ' , Nat.mod_mul]

/-- Two characters of a number read back as the number. -/
theorem word16_chars (w : BitVec 16) :
    word16 (w.setWidth 8) (BitVec.ofNat 8 (w.toNat / 256)) = w := by
  apply BitVec.eq_of_toNat_eq
  have := w.isLt
  simp only [word16, BitVec.toNat_ofNat, BitVec.toNat_setWidth]
  omega

/-- Three characters of a number read back as the number. -/
theorem word24_chars (w : BitVec 24) :
    word24 (w.setWidth 8) (BitVec.ofNat 8 (w.toNat / 256)) (BitVec.ofNat 8 (w.toNat / 256 / 256)) = w := by
  apply BitVec.eq_of_toNat_eq
  have := w.isLt
  simp only [word24, BitVec.toNat_ofNat, BitVec.toNat_setWidth]
  omega

/-- The track lines of a STREAM-LINES body read back as the lines. -/
theorem linesOf_chars (lines : List (BitVec 104)) :
    linesOf lines.length (lines.flatMap fun w => leBytes 13 w.toNat) = lines := by
  induction lines with
  | nil => rfl
  | cons w rest ih =>
    simp only [List.length_cons, List.flatMap_cons, linesOf]
    rw [List.take_left' (leBytes_length 13 _), List.drop_left' (leBytes_length 13 _), ih, leNat_leBytes]
    congr 1
    apply BitVec.eq_of_toNat_eq
    have := w.isLt
    simp only [BitVec.toNat_ofNat]
    omega

/-- A key number in range names its key. -/
theorem keyOf_number {b : Byte} {k : Key} (h : b.toNat = k.val + 1) : keyOf b = some k := by
  have := k.isLt
  unfold keyOf
  rw [dif_pos (by omega)]
  congr 1
  apply Fin.ext
  simp only
  omega

/-- The running sum that begins at a value. -/
theorem foldl_sum (l : List Byte) (a : Byte) : l.foldl (· + ·) a = a + sumOf l := by
  unfold sumOf
  induction l generalizing a with
  | nil => simp
  | cons x rest ih => simp only [List.foldl_cons]; rw [ih (a + x), ih (0 + x)]; simp [BitVec.add_assoc]

/-- The characters of a frame add up to a multiple of 256 (Section 10.7.2). -/
theorem sumOf_frame (kind : Byte) (body : List Byte) : sumOf (frameOf kind body) = 0 := by
  simp only [frameOf]
  unfold sumOf
  rw [List.foldl_append]
  simp only [List.foldl_cons, List.foldl_nil]
  rw [foldl_sum]
  exact BitVec.add_right_neg _

end Sys2Proof.Machine
end

