-- ==== Sys2Proof/Laws/PedalAction.lean ====
section
/-! SUPPORT. What the pulse-width outputs do, where a pedal stands, what a source that leaves a pedal does, and the pause effects at a
key (R110, R114, R121, R125, R127, R131, R133). -/

namespace Sys2Proof.Machine

/-! ### Outputs (R114, R131) -/

/-- Within the period begun nothing changes what drives an output. -/
theorem driveAt_switch_same (o : Output) {now t : Nat} (d : Drive) (h : t / 50 = now / 50) :
    (o.switch now d).driveAt t = o.driveAt now := by
  simp [Output.driveAt, Output.switch, outputPeriod, h]

/-- From the next period on the new setting drives it. -/
theorem driveAt_switch_next (o : Output) {now t : Nat} (d : Drive) (h : now / 50 < t / 50) :
    (o.switch now d).driveAt t = d := by
  simp [Output.driveAt, Output.switch, outputPeriod, h]

/-- An output stopped at once is off. -/
theorem driveAt_stopAtOnce (o : Output) (now t : Nat) : (o.stopAtOnce now).driveAt t = .off := by
  unfold Output.driveAt Output.stopAtOnce
  split <;> rfl

/-- An output conducts from the start of the period for its duty times 50 / 255 µs. -/
theorem conducts_eq {o : Output} {t duty : Nat} (h : o.driveAt t = .forward duty ∨ o.driveAt t = .reverse duty) :
    o.conducts t = decide (t % 50 < duty * 50 / 255) := by
  rcases h with h | h <;> simp only [Output.conducts, h] <;> rfl

/-! ### Where a pedal stands (R125) -/

/-- On the way down. -/
theorem position_goingDown {r : PedalRecord} {x : Travel} {now : Nat} (hs : r.state = .goingDown)
    (ht : r.travel = some x) : r.position now = if x.finish ≤ now then 1000
      else x.estimate + (1000 - x.estimate) * ((now - x.start) / 100) / ((x.finish - x.start) / 100) := by
  simp [PedalRecord.position, hs, ht]

/-- On the way up. -/
theorem position_goingUp {r : PedalRecord} {x : Travel} {now : Nat} (hs : r.state = .goingUp)
    (ht : r.travel = some x) : r.position now = if x.finish ≤ now then 0
      else x.estimate - x.estimate * ((now - x.start) / 100) / ((x.finish - x.start) / 100) := by
  simp [PedalRecord.position, hs, ht]

/-! ### The pause effects at a key (R110) -/

/-- What is left of a strike without the roll. -/
theorem withoutRoll_eq (st : Option Strike) :
    withoutRoll st = match st with
      | none => none
      | some x => if x.contributors.linkA || x.contributors.linkB
          then some { x with contributors := { x.contributors with roll := false } } else none := by
  rcases st with _ | ⟨fire, velocity, band, duty, ⟨roll, a, b⟩, accented⟩
  · rfl
  · cases a <;> cases b <;> rfl

/-- The record of a key whose holders and contributors the roll has left. -/
def KeyRecord.leftByRoll (r : KeyRecord) : KeyRecord :=
  { r with armed := withoutRoll r.armed, pending := withoutRoll r.pending, holders := r.holders.erase .roll }

/-- The strikes of a key that the pause effects discard. -/
def KeyRecord.lostToPause (r : KeyRecord) : Counter :=
  countIf (r.armed.isSome && (withoutRoll r.armed).isNone) + countIf (r.pending.isSome && (withoutRoll r.pending).isNone)

/-- The pause effects at a key: the roll leaves it and the strikes lost are counted; then a key that has lost the strike it was to serve,
or its last holder, acts. -/
theorem pauseKeyOnly_eq (m : Moment) (k : Key) (i : Instrument) :
    let r := i.keys[k]
    let left : Instrument := { i with
      discarded := i.discarded + r.lostToPause
      keys := i.keys.set k r.leftByRoll }
    pauseKeyOnly m k i
      = if (r.armed.isSome && (withoutRoll r.armed).isNone) && (decide (r.state = .armed) || decide (r.state = .wait))
        then loseArmedOnly m k left
        else if r.holders.roll && (r.holders.erase .roll).isEmpty then emptiedOnly m k left else left := by
  intro r left
  have hl : { setKey k r.leftByRoll i with
      discarded := i.discarded + countIf (r.armed.isSome && (withoutRoll r.armed).isNone)
        + countIf (r.pending.isSome && (withoutRoll r.pending).isNone) } = left := by
    simp only [left, KeyRecord.lostToPause, BitVec.add_assoc, setKey]
  rw [← hl]
  rfl

/-- The last holder has left a key: in HOLD it returns with 1 unit returned, in SHED it returns or rests, else it stays (R102). -/
theorem emptiedOnly_set (m : Moment) (k : Key) (i : Instrument) (r : KeyRecord) :
    let j (r' : KeyRecord) : Instrument := { i with keys := i.keys.set k r' }
    (r.state = .hold → emptiedOnly m k (j r) = { j { r with
        state := .returning
        holdStart := none
        returnEnd := some (m.now + m.map.keys[k].returnTime * 100)
        channel := r.channel.switch m.now .off } with unitsInUse := i.unitsInUse - 1 })
      ∧ (r.state = .shed → emptiedOnly m k (j r)
          = j { r with state := if r.returnEnd.isSome then .returning else .rest, holdStart := none })
      ∧ (r.state ≠ .hold → r.state ≠ .shed → emptiedOnly m k (j r) = j r) := by
  intro j
  have hk : (j r).keys[k] = r := by simp [j]
  have hset : ∀ r', (i.keys.set k r).set k r' = i.keys.set k r' := by
    intro r'; apply Vector.ext; intro n hn; simp [Vector.getElem_set]
  refine ⟨fun h => ?_, fun h => ?_, fun h1 h2 => ?_⟩
  · simp only [emptiedOnly, hk, h, setKey, returnUnits, KeyRecord.switchOff, j, hset]
  · simp only [emptiedOnly, hk, h, setKey, j, hset]
  · simp only [emptiedOnly, hk]

/-- A key in ARMED or WAIT whose armed strike was discarded (R98, R104, R105). -/
theorem loseArmedOnly_set (m : Moment) (k : Key) (i : Instrument) (r : KeyRecord) :
    let j (r' : KeyRecord) : Instrument := { i with
      waitList := i.waitList.filter fun e => decide (e.requester ≠ .key k)
      keys := i.keys.set k r' }
    let lost := loseArmedOnly m k { i with keys := i.keys.set k r }
    (r.pending = none →
        lost = j { r with armed := none, requestMoment := none, state := .rest, holders := ⟨false, false, false⟩ })
      ∧ (∀ st, r.pending = some st →
          let armed : KeyRecord := { r with
            state := .armed
            requestMoment := none
            armed := some { st with fire := max st.fire m.pt }
            pending := none
            holdStart := none }
          (m.pt < st.fire → lost = j armed)
          ∧ (st.fire ≤ m.pt → lost = { j { armed with state := .wait, requestMoment := some m.now } with
              waitList := insertWait ⟨.key k, m.now, m.now + m.map.supply.lateLimit * 1000⟩ (j armed).waitList })) := by
  intro j lost
  have hset : ∀ a b, (i.keys.set k a).set k b = i.keys.set k b := by
    intro a b; apply Vector.ext; intro n hn; simp [Vector.getElem_set]
  have hget : ∀ a, (i.keys.set k a)[k] = a := by intro a; simp
  refine ⟨fun h => ?_, fun st h => ⟨fun hf => ?_, fun hf => ?_⟩⟩
  · simp only [lost, loseArmedOnly, withdraw, hget, h, setKey, hset, Origins.empty, j]
  · have hn : ¬ max st.fire m.pt ≤ m.pt := by omega
    simp only [lost, loseArmedOnly, withdraw, hget, h, setKey, hset, askIfDueOnly, KeyRecord.promote, j, if_neg hn]
  · have hn : max st.fire m.pt ≤ m.pt := by omega
    simp only [lost, loseArmedOnly, withdraw, hget, h, setKey, hset, askIfDueOnly, KeyRecord.promote, j, if_pos hn, askOnly,
      placeRequest]

/-! ### A source leaves a pedal (R121, R127, R129, R133) -/

/-- The last source leaves a pedal that is DOWN or GOING-DOWN and does not wait: it goes up with its assist (R127). -/
theorem leavePedalOnly_goes (m : Moment) (d : PedalName) (o : Origin) (i : Instrument) (held : Nat)
    (h1 : (i.pedal d).holders.has o = true) (h2 : ((i.pedal d).holders.erase o).isEmpty = true)
    (h3 : (i.pedal d).requestMoment = none)
    (hs : ((i.pedal d).state = .goingDown ∧ held = 6) ∨ ((i.pedal d).state = .down ∧ held = 2)) :
    leavePedalOnly m d o i
      = goUpOnly m d true (setPedal d { i.pedal d with holders := (i.pedal d).holders.erase o } i) := by
  unfold leavePedalOnly
  dsimp only
  rw [if_pos h1, if_pos h2]
  unfold upRequestOnly
  cases d <;> rcases hs with ⟨hs, _⟩ | ⟨hs, _⟩ <;> simp only [Instrument.pedal, setPedal] at h3 hs ⊢ <;> simp [h3, hs]

end Sys2Proof.Machine
end

