-- ==== Sys2Proof/Laws/Performance.lean ====
section
/-! SUPPORT. What the passing of time changes, the order of the action queue, and when the next expression step falls. -/

namespace Sys2Proof.Machine

/-! ### Time (R2) -/

@[simp] theorem advance_now (dt : Nat) (p : Performance) : (advance dt p).now = p.now + dt := by
  unfold advance; split <;> rfl

@[simp] theorem advance_detector (dt : Nat) (p : Performance) : (advance dt p).detector = p.detector := by
  unfold advance; split <;> rfl

@[simp] theorem advance_queue (dt : Nat) (p : Performance) : (advance dt p).queue = p.queue := by
  unfold advance; split <;> rfl

@[simp] theorem advance_expression (dt : Nat) (p : Performance) : (advance dt p).expression = p.expression := by
  unfold advance; split <;> rfl

@[simp] theorem advance_instrument (dt : Nat) (p : Performance) : (advance dt p).instrument = p.instrument := by
  unfold advance; split <;> rfl

/-- Time changes the session record in PT, its fraction and the moment PT reached its value alone. -/
theorem advance_session (dt : Nat) (p : Performance) :
    (advance dt p).session
      = { p.session with pt := (advance dt p).session.pt, ptFraction := (advance dt p).session.ptFraction,
                         ptSince := (advance dt p).session.ptSince } := by
  unfold advance; split <;> rfl

@[simp] theorem advance_state (dt : Nat) (p : Performance) : (advance dt p).session.state = p.session.state := by
  unfold advance; split <;> rfl

/-- PT does not fall. -/
theorem advance_pt_le (dt : Nat) (p : Performance) (h : p.session.pt ≤ ptMax) :
    p.session.pt ≤ (advance dt p).session.pt := by
  unfold advance; split
  · exact Nat.le_min.2 ⟨h, Nat.le_add_right _ _⟩
  · exact Nat.le_refl _

/-- While the clock stands PT keeps its value. -/
theorem advance_standing {p : Performance} (dt : Nat) (h : p.session.state.clockRuns = false) :
    advance dt p = { p with now := p.now + dt } := by
  simp [advance, h]

/-- Time that passes differs from none in nothing but real time, PT, its fraction and the moment PT reached its value. -/
theorem advance_onlyTime (dt : Nat) (p : Performance) : onlyTime (advance dt p) p := by
  unfold onlyTime advance; split <;> rfl

/-- Real time goes to a moment that is not past. -/
theorem advanceTo_now {t : Nat} {p : Performance} (h : p.now ≤ t) : (advanceTo t p).now = t := by
  simp [advanceTo, h]

theorem advanceTo_onlyTime (t : Nat) (p : Performance) : onlyTime (advanceTo t p) p :=
  advance_onlyTime _ p

/-- Time that passes to the moment at which PT reaches a value brings PT to it, or leaves it where it has already passed it (R2). -/
theorem advanceTo_ptMoment {target t : Nat} {p : Performance} (hf : p.session.ptFraction < 100)
    (hm : ptMoment target p = some t) (hp : p.session.pt ≤ ptMax) :
    (advanceTo t p).session.pt = max p.session.pt target := by
  unfold ptMoment at hm
  split at hm
  · next h =>
    obtain rfl := Option.some.inj hm
    simp only [advanceTo, Nat.sub_self, advance, Session.tick]
    split
    · simp only [Nat.add_zero, Nat.div_eq_of_lt hf]; omega
    · simp only; omega
  · next h =>
    split at hm
    · next hc =>
      obtain rfl := Option.some.inj hm
      simp only [Bool.and_eq_true, decide_eq_true_eq] at hc
      simp only [advanceTo, advance, Session.tick, hc.1, if_true]
      have := hc.2
      simp only [Nat.add_sub_cancel_left]
      have h2 : (p.session.ptFraction + ((target - p.session.pt) * 100 - p.session.ptFraction)) / 100
          = target - p.session.pt := by omega
      rw [h2]; omega
    · exact absurd hm (by simp)

/-! ### The order of the queue (R49, R51, R56, R65) -/

/-- `before` is a total order on entries. -/
theorem Entry.before_total (x y : Entry) : x.before y = true ∨ y.before x = true := by
  simp only [Entry.before, Bool.or_eq_true, Bool.and_eq_true, decide_eq_true_eq]; omega

theorem Entry.before_trans {x y z : Entry} (h : x.before y = true) (g : y.before z = true) :
    x.before z = true := by
  simp only [Entry.before, Bool.or_eq_true, Bool.and_eq_true, decide_eq_true_eq] at *; omega

/-- An entry that is placed joins the others. -/
theorem placeEntry_perm (x : Entry) (l : List Entry) : (placeEntry x l).Perm (x :: l) := by
  induction l with
  | nil => exact .refl _
  | cons y rest ih =>
    unfold placeEntry
    split
    · exact (ih.cons y).trans (.swap x y rest)
    · exact .refl _

/-- An entry that is placed keeps the order. -/
theorem placeEntry_inOrder {x : Entry} {l : List Entry} (h : inOrder l) : inOrder (placeEntry x l) := by
  induction l with
  | nil => exact List.pairwise_singleton _ _
  | cons y rest ih =>
    obtain ⟨hy, hrest⟩ := List.pairwise_cons.1 h
    unfold placeEntry
    split
    · next hb =>
      refine List.pairwise_cons.2 ⟨fun z hz => ?_, ih hrest⟩
      rcases List.mem_cons.1 ((placeEntry_perm x rest).mem_iff.1 hz) with rfl | hz
      · exact hb
      · exact hy z hz
    · next hb =>
      have hxy : x.before y = true := (Entry.before_total x y).resolve_right hb
      refine List.pairwise_cons.2 ⟨fun z hz => ?_, h⟩
      rcases List.mem_cons.1 hz with rfl | hz
      · exact hxy
      · exact Entry.before_trans hxy (hy z hz)

/-- The place of an entry: after every entry that stands before it, and before every other. -/
theorem placeEntry_split {x : Entry} {l : List Entry} (h : inOrder l) :
    ∃ front back, l = front ++ back ∧ placeEntry x l = front ++ x :: back
      ∧ (∀ y ∈ front, y.before x = true) ∧ ∀ y ∈ back, y.before x = false := by
  induction l with
  | nil => exact ⟨[], [], rfl, rfl, by simp, by simp⟩
  | cons y rest ih =>
    obtain ⟨hy, hrest⟩ := List.pairwise_cons.1 h
    cases hb : y.before x with
    | true =>
      obtain ⟨front, back, h1, h2, h3, h4⟩ := ih hrest
      refine ⟨y :: front, back, by simp [h1], by simp [placeEntry, hb, h2], ?_, h4⟩
      intro z hz
      rcases List.mem_cons.1 hz with rfl | hz
      · exact hb
      · exact h3 z hz
    | false =>
      refine ⟨[], y :: rest, rfl, by simp [placeEntry, hb], by simp, ?_⟩
      intro z hz
      rcases List.mem_cons.1 hz with rfl | hz
      · exact hb
      · cases hz' : z.before x with
        | false => rfl
        | true => exact absurd (Entry.before_trans (hy z hz) hz') (by simp [hb])

/-- Sorting keeps the entries. -/
theorem sortEntries_perm (l : List Entry) : (sortEntries l).Perm l := by
  have key : ∀ (l acc : List Entry), (l.foldl (fun acc x => placeEntry x acc) acc).Perm (acc ++ l) := by
    intro l
    induction l with
    | nil => intro acc; simp
    | cons x rest ih =>
      intro acc
      refine (ih (placeEntry x acc)).trans ?_
      refine ((placeEntry_perm x acc).append_right rest).trans ?_
      simpa using (List.perm_middle (a := x) (l₁ := acc) (l₂ := rest)).symm
  simpa [sortEntries] using key l []

/-- Sorting puts the entries in order. -/
theorem sortEntries_inOrder (l : List Entry) : inOrder (sortEntries l) := by
  have key : ∀ (l acc : List Entry), inOrder acc → inOrder (l.foldl (fun acc x => placeEntry x acc) acc) := by
    intro l
    induction l with
    | nil => intro acc h; exact h
    | cons x rest ih => intro acc h; exact ih _ (placeEntry_inOrder h)
  exact key l [] List.Pairwise.nil

/-- A discard takes the entries that the test picks, and keeps the order of the rest. -/
theorem discard_inOrder {q : Queue} (test : Entry → Bool) (h : inOrder q.entries) :
    inOrder (q.discard test).2.entries :=
  List.Pairwise.filter _ h

/-! ### The expression step (R75, R78) -/

/-- A step of both halves, and the next step from there on. -/
@[simp] theorem stepAt_eq (x : Expression) (map : RegulationMap) (at_ : Nat) :
    x.stepAt map at_ = { x with
      bass := x.bass.step map.expression
      treble := x.treble.step map.expression
      lastStep := at_
      owed := false } := rfl

/-- A step that is owed falls at the present PT. -/
theorem nextStep_owed {map : RegulationMap} {pt : Nat} {x : Expression} (h : x.owed = true) : nextStep map pt x = pt := by
  simp [nextStep, h]

/-- With none owed the next step is the least multiple of the period past the last step and not below PT. -/
theorem nextStep_least {map : RegulationMap} {pt : Nat} {x : Expression} (h : x.owed = false) (hp : 0 < stepUnits map) :
    nextStep map pt x % stepUnits map = 0 ∧ x.lastStep < nextStep map pt x ∧ pt ≤ nextStep map pt x
      ∧ ∀ n, n % stepUnits map = 0 → x.lastStep < n → pt ≤ n → nextStep map pt x ≤ n := by
  unfold nextStep
  rw [if_neg (by simp [h])]
  generalize stepUnits map = u at hp
  generalize hm : max (x.lastStep + 1) pt = a
  have hle : a ≤ (a + u - 1) / u * u := by
    have h1 := Nat.div_add_mod (a + u - 1) u
    have h2 := Nat.mod_lt (a + u - 1) hp
    rw [Nat.mul_comm]; omega
  refine ⟨Nat.mul_mod_left _ _, by omega, by omega, fun n hn h3 h4 => ?_⟩
  obtain ⟨q, rfl⟩ := Nat.dvd_of_mod_eq_zero hn
  rw [Nat.mul_comm u q]
  refine Nat.mul_le_mul_right u (Nat.le_of_lt_succ ((Nat.div_lt_iff_lt_mul hp).2 ?_))
  rw [Nat.succ_mul, Nat.mul_comm q u]; omega

/-- What a change of the working map makes of the expression unit (R75, R78; log 22). -/
theorem newStepPeriod_stepsAnew (s : State) (new : RegulationMap) :
    stepsAnew s new (newStepPeriod s.perf.now s.map new s.perf.session s.perf.expression) := by
  have ho : stepOwed s.map s.perf.session.pt s.perf.expression = true ↔ s.perf.expression.owed = true
      ∨ (s.perf.expression.lastStep < s.perf.session.pt
        ∧ s.perf.session.pt % (s.map.expression.stepPeriod * 10) = 0) := by
    simp only [stepOwed, Bool.or_eq_true, Bool.and_eq_true, decide_eq_true_eq]
    exact Iff.rfl
  unfold stepsAnew newStepPeriod
  dsimp only
  split
  · next h =>
    refine ⟨rfl, fun _ => rfl, fun h1 h2 => ?_⟩
    rcases h with h | h
    · exact absurd h.symm h1
    · exact absurd h h2
  · next h =>
    refine ⟨rfl, fun h' => absurd (h'.imp Eq.symm id) h, fun _ _ => ⟨fun hs => nextStep_owed (ho.2 hs), fun hs hp => ?_⟩⟩
    have hf : stepOwed s.map s.perf.session.pt s.perf.expression = false := by
      rwa [← Bool.not_eq_true, ho]
    obtain ⟨h1, h2, h3, h4⟩ := nextStep_least (map := new) (pt := s.perf.session.pt)
      (x := { s.perf.expression with
        lastStep := max s.perf.expression.lastStep s.perf.session.pt
        owed := stepOwed s.map s.perf.session.pt s.perf.expression }) hf hp
    refine ⟨h1, ?_, ?_, fun n h5 h6 h7 => h4 n h5 ?_ (Nat.le_of_lt h6)⟩
    · exact Nat.lt_of_le_of_lt (Nat.le_max_right _ _) h2
    · exact Nat.lt_of_le_of_lt (Nat.le_max_left _ _) h2
    · exact Nat.max_lt.2 ⟨h7, h6⟩

end Sys2Proof.Machine
end

