-- ==== Sys2Proof/Laws/Requests.lean ====
section
/-! SUPPORT. What a request does at its execution, and what each check of a chain of checks does. -/

namespace Sys2Proof.Machine

/-- A request that is taken runs, and its response is made in the state that its execution leaves. -/
theorem request_taken {s : State} {l : Link} {c : Instr} (h : Takes s l c) (run : State → Reply × State) :
    request l c run s
      = respond l c (run s).1.result (run s).1.data (run s).1.after (run s).2 := by
  obtain ⟨hr, hn⟩ := h
  simp only [State.receives, Bool.and_comm] at hr
  simp [request, hr, hn, execute, respond]

/-- Every request goes through the slots of its link. -/
theorem exec_is_request {c : Instr} {l : Link} (h : requestLink c = some l) :
    ∃ run, ∀ s, exec c s = .next (request l c run s) := by
  cases c <;> simp only [requestLink, Option.some.injEq, reduceCtorEq] at h <;> subst h <;>
    exact ⟨_, fun _ => rfl⟩

/-- A check that holds lets the next one judge. -/
theorem require_pass {test : State → Bool} {s : State} (h : test s = true) (r : Result)
    (next : State → Reply × State) : require test r next s = next s := by
  simp [require, h]

/-- A check that fails gives the response, and the request changes nothing. -/
theorem require_fail {test : State → Bool} {s : State} (h : test s = false) (r : Result)
    (next : State → Reply × State) : require test r next s = (refuse r, s) := by
  simp [require, h]

/-- A value in range lets the next check judge. -/
theorem requireValue_some {α : Type} (x : α) (next : α → State → Reply × State) (s : State) :
    requireValue (some x) next s = next x s := rfl

/-- A value out of range is OUT-OF-RANGE, and the request changes nothing. -/
theorem requireValue_none {α : Type} (next : α → State → Reply × State) (s : State) :
    requireValue none next s = (refuse .outOfRange, s) := rfl

/-- A response changes nothing but the record of its link. -/
@[simp] theorem respond_perf (l : Link) (c : Instr) (r : Result) (d : List Byte) (a : Option AfterAction) (s : State) :
    (respond l c r d a s).perf = s.perf := by
  simp [respond]

/-- A response leaves the claim. -/
@[simp] theorem respond_claim (l : Link) (c : Instr) (r : Result) (d : List Byte) (a : Option AfterAction) (s : State) :
    (respond l c r d a s).claim = s.claim := by
  simp [respond]

/-- A response leaves the working map. -/
@[simp] theorem respond_map (l : Link) (c : Instr) (r : Result) (d : List Byte) (a : Option AfterAction) (s : State) :
    (respond l c r d a s).map = s.map := by
  simp [respond]

/-- A response leaves the profile store. -/
@[simp] theorem respond_store (l : Link) (c : Instr) (r : Result) (d : List Byte) (a : Option AfterAction) (s : State) :
    (respond l c r d a s).store = s.store := by
  simp [respond]

/-- A response leaves the power state. -/
@[simp] theorem respond_power (l : Link) (c : Instr) (r : Result) (d : List Byte) (a : Option AfterAction) (s : State) :
    (respond l c r d a s).power = s.power := by
  simp [respond]

/-- A response leaves the input pins. -/
@[simp] theorem respond_pins (l : Link) (c : Instr) (r : Result) (d : List Byte) (a : Option AfterAction) (s : State) :
    (respond l c r d a s).pins = s.pins := by
  simp [respond]

/-- A response leaves the commands that wait. -/
@[simp] theorem respond_pending (l : Link) (c : Instr) (r : Result) (d : List Byte) (a : Option AfterAction)
    (s : State) : (respond l c r d a s).pending = s.pending := by
  simp [respond]

/-- A response leaves the other link's record. -/
@[simp] theorem respond_link_other (l : Link) (c : Instr) (r : Result) (d : List Byte) (a : Option AfterAction)
    (s : State) : (respond l c r d a s).link l.other = s.link l.other := by
  simp [respond]

/-- The record of the link once its response has been made. -/
@[simp] theorem respond_link (l : Link) (c : Instr) (r : Result) (d : List Byte) (a : Option AfterAction) (s : State) :
    (respond l c r d a s).link l = answer (.response (requestKind c) r d) a (s.link l) := by
  simp [respond]

/-- A session that is not ENDING completes nothing. -/
theorem testEnding_of_ne {e : Env} {p : Performance} (h : p.session.state ≠ .ending) : testEnding e p = p := by
  simp [testEnding, h]

/-- A session with something of the roll left does not complete. -/
theorem testEnding_of_left {e : Env} {p : Performance} (h : notCompleting p) : testEnding e p = p := by
  unfold testEnding
  split
  · next hc => exact absurd hc.2 (by simp [h hc.1])
  · rfl

/-- What follows a change that completes no roll: the forward step that R14 calls for. -/
theorem settle_of_left {e : Env} {p : Performance} (h : notCompleting p) :
    settle e p = onSession (forwardStep p.now) p := by
  simp [settle, testEnding_of_left h]

/-- No step is issued where R14 calls for none. -/
theorem forwardStep_of_none {now : Nat} {s : Session} (h : s.wantsStep = false) : forwardStep now s = s := by
  simp [forwardStep, h]

/-- A part that runs changes its performance, and what follows every change follows. -/
theorem changePerf_running {f : Env → Performance → Performance} {s : State} (h : s.running = true) :
    changePerf f s = { s with perf := settle s.env (f s.env s.perf) } := by
  simp [changePerf, h, onPerf]

/-- With no entry due nothing launches. -/
theorem takeFirst_none {test : Entry → Bool} {l : List Entry} (h : ∀ x ∈ l, test x = false) :
    takeFirst test l = none := by
  induction l with
  | nil => rfl
  | cons x rest ih =>
    simp [takeFirst, h x (by simp), ih fun y hy => h y (by simp [hy])]

/-- With no entry due the launch of due entries changes nothing. -/
theorem launchDue_of_none {e : Env} {p : Performance} (h : noneDue p) : launchDue e p = p := by
  unfold launchDue
  cases hl : p.queue.entries.length with
  | zero => rfl
  | succ n =>
    have hn : takeFirst (fun x => decide (x.launch ≤ p.session.pt)) p.queue.entries = none :=
      takeFirst_none fun x hx => by simpa using h x hx
    unfold launchUpTo
    split
    · simp [launchFirst, hn]
    · rfl

/-- With the clock standing nothing launches. -/
theorem launchDue_standing {e : Env} {p : Performance} (h : p.session.state.clockRuns = false) :
    launchDue e p = p := by
  unfold launchDue
  cases p.queue.entries.length with
  | zero => rfl
  | succ n => simp [launchUpTo, h]

end Sys2Proof.Machine
end

