-- ==== Sys2Proof/Laws/RollEnd.lean ====
section
/-! SUPPORT. What a roll does at its beginning and its end: the pre-roll of a stream, the cuts at the ending limit, and the completion
that follows it (R8, R20, R22, R52, R67, R111). -/

namespace Sys2Proof.Machine

/-! ### Pre-roll (R8) -/

/-- A session that an event cannot tell from another: its clock stands too, with the same PT and tempo. -/
def standsAs (y x : Session) : Prop :=
  y.state.clockRuns = false ∧ x.state.clockRuns = false ∧ y.pt = x.pt ∧ y.tempo = x.tempo

/-- While the clock stands, an event takes nothing of the session but PT and the tempo, and changes nothing of it. -/
theorem queueEvent_session (e : Env) (ref : Reference) (ev : HoleEvent) {p : Performance} {y : Session}
    (h : standsAs y p.session) :
    queueEvent e ref ev { p with session := y } = { queueEvent e ref ev p with session := y }
      ∧ (queueEvent e ref ev p).session = p.session := by
  obtain ⟨h1, h2, h3, h4⟩ := h
  unfold queueEvent
  cases trackAction ev with
  | none => exact ⟨rfl, rfl⟩
  | some a =>
    dsimp only
    split
    · constructor
      · simp [insertEntry, h1, h2, h4]
      · simp [insertEntry, h2]
    · constructor
      · cases a <;> simp [refuseRoll, refusedEffect, onInstrument, Performance.moment, h3]
      · cases a <;> simp [refuseRoll, refusedEffect, onInstrument]

/-- The same of the events of a line. -/
theorem queueEvents_session (e : Env) (ref : Reference) (l : List HoleEvent) {p : Performance} {y : Session}
    (h : standsAs y p.session) :
    queueEvents e ref l { p with session := y } = { queueEvents e ref l p with session := y }
      ∧ (queueEvents e ref l p).session = p.session := by
  induction l generalizing p with
  | nil => exact ⟨rfl, rfl⟩
  | cons ev l ih =>
    obtain ⟨h1, h2⟩ := queueEvent_session e ref ev h
    obtain ⟨g1, g2⟩ := ih (p := queueEvent e ref ev p) (by rw [h2]; exact h)
    simp only [queueEvents, List.foldl_cons] at g1 g2 ⊢
    rw [h1]
    exact ⟨g1, g2.trans h2⟩

/-- A line of pre-roll at a position. -/
def preRollLine (e : Env) (p : Performance) (x : TrackLine × Nat) : Performance :=
  let out := p.detector.streamLine e.map x.2 x.1
  queueEvents e (preRollReference e) out.2 { p with detector := out.1 }

/-- A line of pre-roll takes nothing of the session but PT and the tempo, and changes nothing of it. -/
theorem preRollLine_session (e : Env) (x : TrackLine × Nat) {p : Performance} {y : Session} (h : standsAs y p.session) :
    preRollLine e { p with session := y } x = { preRollLine e p x with session := y }
      ∧ (preRollLine e p x).session = p.session :=
  queueEvents_session e _ _ (p := { p with detector := (p.detector.streamLine e.map x.2 x.1).1 }) h

/-- The same of lines one after another. -/
theorem preRollLines_session (e : Env) (l : List (TrackLine × Nat)) {p : Performance} {y : Session}
    (h : standsAs y p.session) :
    l.foldl (preRollLine e) { p with session := y } = { l.foldl (preRollLine e) p with session := y }
      ∧ (l.foldl (preRollLine e) p).session = p.session := by
  induction l generalizing p with
  | nil => exact ⟨rfl, rfl⟩
  | cons x l ih =>
    obtain ⟨h1, h2⟩ := preRollLine_session e x h
    obtain ⟨g1, g2⟩ := ih (p := preRollLine e p x) (by rw [h2]; exact h)
    rw [List.foldl_cons, List.foldl_cons, h1]
    exact ⟨g1, g2.trans h2⟩

/-- Stream lines consumed in pre-roll one after another: each is read, and its events queued; the session takes their places (R8). -/
theorem consumeStream_eq (e : Env) (lines rest : List TrackLine) {p : Performance}
    (hs : p.session.source = .stream) (hb : p.session.streamBuffer = lines ++ rest) (hc : p.session.state.clockRuns = false)
    (hp : p.session.rollPosition + lines.length ≤ 4194303) :
    consumeStream e lines.length p
      = { (lines.zipIdx p.session.rollPosition).foldl (preRollLine e) p with
        session := { p.session with
          streamBuffer := rest
          rollPosition := p.session.rollPosition + lines.length
          lastPosition := if lines = [] then p.session.lastPosition else p.session.rollPosition + lines.length - 1 } } := by
  induction lines generalizing p with
  | nil =>
    cases p
    simp only [List.nil_append] at hb
    simp [consumeStream, ← hb]
  | cons line lines ih =>
    simp only [List.cons_append] at hb
    simp only [List.length_cons] at hp ⊢
    let y : Session := advancePosition { p.session with streamBuffer := lines ++ rest }
    have hy : y = { p.session with
        streamBuffer := lines ++ rest
        lastPosition := p.session.rollPosition
        rollPosition := p.session.rollPosition + 1 } := by
      show advancePosition _ = _
      simp only [advancePosition, positionMax]
      rw [Nat.min_eq_right (by omega)]
    have hstand : standsAs y p.session := by rw [hy]; exact ⟨hc, hc, rfl, rfl⟩
    have hconsume : consume e (preRollReference e) p
        = some { preRollLine e p (line, p.session.rollPosition) with session := y } := by
      simp only [consume, hs, hb, afterLine, Bool.false_and, Bool.false_eq_true, if_false]
      exact congrArg some (preRollLine_session e (line, p.session.rollPosition) hstand).1
    rw [consumeStream, hconsume]
    refine (ih (p := { preRollLine e p (line, p.session.rollPosition) with session := y }) ?_ ?_ ?_ ?_).trans ?_
    · rw [hy]; exact hs
    · rw [hy]
    · rw [hy]; exact hc
    · rw [hy]; show p.session.rollPosition + 1 + lines.length ≤ _; omega
    · have hq := (preRollLine_session e (line, p.session.rollPosition) hstand).2
      rw [(preRollLines_session e _ (by rw [hq]; exact hstand)).1]
      simp only [hy, List.zipIdx_cons, List.foldl_cons]
      congr 2
      · omega
      · split <;> simp_all

/-! ### The ending limit (R22, R67, R111) -/

/-- Each of some keys that the roll holds counts CUT, with notice CUT on both links where there is one (R111). -/
theorem rollCuts_fold (l : List Key) (i : Instrument) :
    l.foldl (fun acc k => if acc.keys[k].holders.roll then raiseBoth .cut { acc with cut := acc.cut + 1 } else acc) i
      = { i with
        cut := i.cut + BitVec.ofNat 32 (l.filter fun k => i.keys[k].holders.roll).length
        noticesA := if (l.filter fun k => i.keys[k].holders.roll) = [] then i.noticesA else i.noticesA ||| noticeBit .cut
        noticesB := if (l.filter fun k => i.keys[k].holders.roll) = [] then i.noticesB else i.noticesB ||| noticeBit .cut } := by
  induction l generalizing i with
  | nil => simp
  | cons x l ih =>
    rw [List.foldl_cons, ih]
    by_cases hx : i.keys[x].holders.roll = true
    · simp only [Fin.getElem_fin] at hx ⊢
      simp only [hx, if_true, raiseBoth, List.filter_cons, List.length_cons]
      congr 1
      · rw [BitVec.add_assoc, BitVec.add_comm 1, BitVec.ofNat_add]; rfl
      · split <;> simp [BitVec.or_assoc]
      · split <;> simp [BitVec.or_assoc]
    · simp only [Fin.getElem_fin] at hx ⊢
      simp only [hx, List.filter_cons, Bool.false_eq_true, if_false]

/-- Each key that the roll holds counts CUT, with notice CUT on both links where there is one (R111). -/
theorem countRollCuts_eq (i : Instrument) :
    let rolled := allKeys.filter fun k => i.keys[k].holders.roll
    countRollCuts i = { i with
      cut := i.cut + BitVec.ofNat 32 rolled.length
      noticesA := if rolled = [] then i.noticesA else i.noticesA ||| noticeBit .cut
      noticesB := if rolled = [] then i.noticesB else i.noticesB ||| noticeBit .cut } :=
  rollCuts_fold allKeys i

/-- Where the stop leaves a session (R20, R23). -/
theorem afterStop_clear (e : Env) (now : Nat) (s : Session) :
    let s' := afterStop e now (clearSession s)
    (s'.state = .idle ∨ s'.state = .rewinding) ∧ s'.pt = s.pt ∧ s'.endingStart = none := by
  intro s'
  simp only [s', afterStop, startRewind]
  split
  · exact ⟨.inl rfl, rfl, rfl⟩
  · split
    · exact ⟨.inl rfl, rfl, rfl⟩
    · exact ⟨.inr rfl, rfl, rfl⟩

/-- The strikes of the roll discarded at the limit and those of the links discarded at the stop are the strikes queued. -/
theorem discarded_strikes (l : List Entry) :
    (l.filter fun x => x.isRoll && x.action.isStrike).length
      + ((l.filter fun x => !x.isRoll).filter fun x => x.action.isStrike).length
      = (l.filter fun x => x.action.isStrike).length := by
  induction l with
  | nil => rfl
  | cons y l ih =>
    simp only [List.filter_cons]
    cases y.isRoll <;> cases hh : y.action.isStrike <;> simp_all <;> omega

/-- The ending limit and the completion that follows it, where the pause effects leave the roll nothing: the cuts, the pause effects,
every strike queued discarded, the pause effects of the stop, and ROLL-END (R22, R67, R111). -/
theorem settle_endingLimit {e : Env} {q : Performance}
    (hk : ∀ k : Key, ((pauseInstrument (q.moment e) (countRollCuts q.instrument)).keys[k]).hasRoll = false)
    (hd : ∀ d : PedalName, ((pauseInstrument (q.moment e) (countRollCuts q.instrument)).pedal d).holders.roll = false)
    (hs : q.session.state = .ending) :
    let p := settle e (endingLimit e q)
    (p.session.state = .idle ∨ p.session.state = .rewinding) ∧ p.session.pt = q.session.pt
      ∧ p.session.endingStart = none ∧ p.now = q.now ∧ p.queue.entries = []
      ∧ p.instrument = raiseBoth .rollEnd (pauseInstrument (q.moment e)
          (countDiscarded q.queue.strikes (pauseInstrument (q.moment e) (countRollCuts q.instrument)))) := by
  intro p
  have hdone : rollIsDone (endingLimit e q) = true := by
    have hdamper := hd .damper
    have hshift := hd .shift
    simp only [Instrument.pedal] at hdamper hshift
    simp only [rollIsDone, endingLimit, discardEntries, pauseEffects, onInstrument, countDiscarded, Queue.discard]
    simp only [Performance.moment] at hk hdamper hshift ⊢
    simp only [hdamper, hshift, Bool.and_eq_true, Bool.not_eq_true', List.any_eq_false, Bool.not_false, and_true]
    constructor
    · intro y hy
      simpa using (List.mem_filter.1 hy).2
    · intro r hr
      rw [Vector.mem_toList_iff, Vector.mem_iff_getElem] at hr
      obtain ⟨n, hn, rfl⟩ := hr
      have := hk ⟨n, hn⟩
      simp only [Fin.getElem_fin] at this
      rw [this]; exact Bool.false_ne_true
  have hset : p = completeEnding e (endingLimit e q) := by
    simp only [p, settle, testEnding]
    rw [if_pos ⟨hs, hdone⟩]
    have hidle : ∀ p : Performance, (p.session.state = .idle ∨ p.session.state = .rewinding) →
        onSession (forwardStep p.now) p = p := by
      intro p h
      unfold onSession forwardStep Session.wantsStep Session.steps
      rcases h with h | h <;> simp [h]
    exact hidle _ (afterStop_clear e _ _).1
  clear_value p
  subst hset
  refine ⟨(afterStop_clear e _ _).1, (afterStop_clear e _ _).2.1, (afterStop_clear e _ _).2.2, ?_, ?_, ?_⟩
  · simp only [completeEnding, stopSession, onSession, onInstrument, pauseEffects, discardEntries, endingLimit]
  · show ((Queue.discard (fun _ => true) _).2).entries = []
    simp [Queue.discard]
  · have hq : (endingLimit e q).queue.entries = q.queue.entries.filter fun x => !x.isRoll := by
      simp only [endingLimit, discardEntries, pauseEffects, onInstrument, Queue.discard]
    simp only [completeEnding, stopSession, onSession, pauseEffects, onInstrument, discardEntries, Queue.discard, hq,
      Bool.true_and]
    simp only [endingLimit, discardEntries, Queue.discard, pauseEffects, onInstrument, countDiscarded, Queue.strikes,
      Performance.moment, BitVec.add_assoc, ← BitVec.ofNat_add, discarded_strikes]

end Sys2Proof.Machine
end

