-- ==== Sys2Proof/Tests/Slice0.lean ====
section
/-! SUPPORT. The model's own tests: ill-formed commands are refused by the well-formedness check, the worked examples of the spec come
out as the spec gives them, and every statement's hypotheses are met by a concrete state. -/

namespace Sys2Proof.Tests

open Sys2Proof.Machine

set_option maxRecDepth 100000
set_option exponentiation.threshold 1300

/-! ### Helpers -/

/-- A link that is UP and otherwise as after reset. -/
def upLink : LinkRecord := { LinkRecord.reset true with up := true }

/-- The part after reset with both links UP, the claim held by Link A, and a roll present. -/
def ready : State :=
  { State.reset with
    linkA := upLink
    linkB := upLink
    claim := ⟨some ⟨.a, 1500000, false⟩, .both⟩
    pins := { State.reset.pins with rollPresent := true } }

/-- The request stands in the link's slots, next to be executed. -/
def took (l : Link) (c : Instr) (s : State) : State :=
  setLink l { s.link l with slots := [⟨.request c, false, none⟩] } s

/-- Change the session. -/
def session (f : Session → Session) (s : State) : State :=
  { s with perf := { s.perf with session := f s.perf.session } }

/-- The session in a state. -/
def inState (x : SessionState) : State → State := session fun y => { y with state := x }

/-- The session of a stream that is open. -/
def stream : State → State := session fun y => { y with source := .stream, streamOpen := true }

/-- Change the instrument. -/
def instr (f : Instrument → Instrument) (s : State) : State :=
  { s with perf := { s.perf with instrument := f s.perf.instrument } }

/-- The state after a command. -/
def after (c : Instr) (s : State) : State :=
  match exec c s with
  | .next t => t
  | _ => s

/-- The state after commands. -/
def afterAll (cs : List Instr) (s : State) : State := cs.foldl (fun s c => after c s) s

/-- The result and the data of the response in transmission. -/
def answerOn (l : Link) (s : State) : Option (Result × List Byte) :=
  match (s.link l).sending with
  | some (.message (.response _ r d) _) => some (r, d)
  | _ => none

/-- The performance with an entry inserted. -/
def inserted (a : Action) (o : Origin) (sounding : Nat) (s : State) : State :=
  { s with perf := insertEntry s.env (newEntry s.map a o sounding (if o = .roll then some 0 else none) s.perf.queue) s.perf }

/-- The session plays a stream with PT at a value. -/
def playing (pt : Nat) : State → State :=
  session fun x => { x with state := .playing, source := .stream, streamOpen := true, pt := pt, intervalEnd := some 2500 }

/-- A blank STREAM-LINES. -/
def blank (n : Nat) : Instr := .streamLines .a (BitVec.ofNat 8 n) (List.replicate n 0)

/-! ### Well-formedness -/

theorem test_wellFormed_streamCount : (Instr.streamLines .a 2 [0]).wellFormed = false := by decide

theorem test_wellFormed_streamTooLong : (Instr.streamLines .a 20 (List.replicate 20 0)).wellFormed = false := by decide

theorem test_wellFormed_strikeVelocity : (Instr.liveStrike .a 1 0 5 0 0).wellFormed = false := by decide

theorem test_wellFormed_strikeOffset : (Instr.liveStrike .a 1 0 0 5 0).wellFormed = false := by decide

theorem test_wellFormed_strikeHold : (Instr.liveStrike .a 1 0 0 0 5).wellFormed = false := by decide

theorem test_wellFormed_releaseOffset : (Instr.liveRelease .a 1 0 5).wellFormed = false := by decide

theorem test_wellFormed_pedalOffset : (Instr.livePedal .a 1 0 5).wellFormed = false := by decide

theorem test_wellFormed_recordLength : (Instr.writeRecord .a 4 0 [8]).wellFormed = false := by decide

theorem test_wellFormed_recordSelector : (Instr.writeRecord .a 5 0 []).wellFormed = false := by decide

theorem test_wellFormed_unknownKind : (Instr.unknownRequest .a 1 []).wellFormed = false := by decide

theorem test_wellFormed_unknownBody : (Instr.unknownRequest .a 0 (List.replicate 251 0)).wellFormed = false := by decide

/-! ### Words: the table gives no row any bits -/

theorem test_decode_none : decodeTableWord 16 0x1234 = none := by decide

theorem test_withFetchWord : (State.reset.withFetchWord 8 1).pending = [] := by decide

/-! ### Frames and requests (Section 10.7, 10.8) -/

theorem test_frame_play : frameOf 19 [] = [19, 0, 237] := by decide

theorem test_frame_tempo : frameOf 22 [128, 56, 1] = [22, 3, 128, 56, 1, 46] := by decide

theorem test_request_tempo : requestOf .a 22 [128, 56, 1] = some (.setTempo .a 80000) := by decide

theorem test_request_strike :
    requestOf .b 32 [60, 7, 150, 200, 0, 184, 11] = some (.liveStrike .b 60 7 150 200 3000) := by decide

theorem test_request_length : requestOf .a 19 [0] = none := by decide

/-- A frame sent character by character puts its request in a slot. -/
theorem test_character_frame :
    let s := after (.breakDetected .b) ready
    let t := afterAll ((frameOf 1 []).mapIdx fun i b => .character .b (cleanCharacter b (decide (i = 0)))) s
    (t.linkB.slots, t.linkB.receiver) = ([⟨.request (.claim .b), false, none⟩], .waitBreak) := by decide

/-- A character with unlike samples is NOISY, and its message is discarded. -/
theorem test_character_noise :
    let t := afterAll [.breakDetected .b, .character .b (cleanCharacter 1 true ^^^ 1)] ready
    t.linkB.slots = [⟨.discard .noise 0, false, none⟩] ∧ t.linkB.frameError = 1 := by decide

/-! ### Commands -/

theorem test_claim : answerOn .b (after (.claim .b) ready) = some (.heldByOther, []) := by decide

theorem test_renew :
    let s := after (.renew .a 1) ready
    (answerOn .a s, s.claim.held) = (some (.ok, []), some ⟨.a, 1500000, true⟩) := by decide

theorem test_yield : (after (.yieldClaim .a) ready).claim.held = none := by decide

theorem test_askYield : (after (.askYield .b) ready).perf.instrument.noticesA = 0x200 := by decide

theorem test_setAdmission : (after (.setAdmission .a 1) ready).claim.admission = .holder := by decide

theorem test_leaseEnd :
    let s := after .leaseEnd (playing 100 ready)
    (s.claim.held, s.perf.session.state, s.perf.session.pauseCause, s.perf.now, s.perf.session.pt)
      = (none, .paused, .lapse, 1500000, 15100) := by decide

theorem test_selectSource : (after (.selectSource .a 1) ready).perf.session.source = .stream := by decide

theorem test_free : (after (.free .a) ready).perf.session.state = .free := by decide

theorem test_prepare :
    let x := (after (.prepare .a) ready).perf.session
    (x.state, x.intervalEnd, x.stepTimer, x.rewindCount) = (.preparing, some 2500, some 20000, 1) := by decide

/-- Lines join the stream buffer, and a close in PREPARING consumes them in pre-roll (R8, R16). -/
theorem test_streamLines :
    let s := after (blank 2) (stream (inState .preparing ready))
    let t := afterAll [.messageSent .a, .streamClose .a] s
    (answerOn .a s, s.perf.session.streamBuffer.length) = (some (.ok, [2, 126]), 2)
      ∧ (t.perf.session.state, t.perf.session.rollPosition, t.perf.session.lastPosition) = (.cued, 2, 1) := by decide

theorem test_streamClose : (after (.streamClose .a) (stream (inState .cued ready))).perf.session.streamOpen = false := by decide

theorem test_play :
    let x := (after (.play .a) (stream (inState .cued ready))).perf.session
    (x.state, x.intervalEnd) = (.playing, some 2500) := by decide

theorem test_pause :
    let x := (after (.pause .a) (playing 100 ready)).perf.session
    (x.state, x.pauseCause, x.resumeTarget, x.intervalEnd) = (.paused, .request, some .playing, none) := by decide

theorem test_stop :
    let s := after (.stop .a) (inserted (.strike 59 false .expression none) .roll 9000 (playing 100 ready))
    (s.perf.session.state, s.perf.queue.entries, s.perf.instrument.discarded) = (.idle, [], 1) := by decide

/-- A roll entry at 10,600 is rescaled about PT 10,000 when the period is halved (Section 3.10). -/
theorem test_setTempo :
    let s := after (.setTempo .a 40000) (inserted (.pedalUp .damper) .roll 10600 (playing 10000 ready))
    (s.perf.queue.entries.map fun x => (x.sounding, x.launch), s.perf.session.newFrame) = ([(10300, 10100)], true) := by decide

theorem test_setTrim : (after (.setTrim .a 3) ready).perf.expression.trim = 3 := by decide

/-- A strike NOW with the clock standing fires at once (Section 9.5). -/
theorem test_liveStrike :
    let s := after (.liveStrike .b 60 1 200 0 0) ready
    (s.perf.instrument.keys[59].state, s.perf.instrument.keys[59].driveEnd, s.perf.instrument.unitsInUse,
      s.perf.instrument.accepted, s.perf.instrument.fired) = (.drive, some 8000, 3, 1, 1) := by decide

/-- A strike AT with a hold length enters two entries and carries their numbers (Section 9.8). -/
theorem test_liveStrike_at :
    let s := after (.liveStrike .b 60 7 150 400 3000) (playing 50000 ready)
    (answerOn .b s, s.perf.queue.entries.map fun x => (x.sounding, x.launch))
      = (some (.ok, [0, 0, 1, 0]), [(50400, 50180), (53400, 53350)]) := by decide

theorem test_liveRelease : answerOn .b (after (.liveRelease .b 60 2 100) (inState .free ready)) = some (.ok, [0, 0]) := by decide

theorem test_livePedal :
    let d := (after (.livePedal .b 0 0 0) ready).perf.instrument.damper
    (d.state, d.travel) = (.goingDown, some ⟨0, 0, 40000⟩) := by decide

theorem test_writeRecord : (after (.writeRecord .a 4 0 [12, 60]) ready).map.supply = ⟨12, 60⟩ := by decide

theorem test_writeRecord_range : answerOn .a (after (.writeRecord .a 4 0 [7, 60]) ready) = some (.outOfRange, []) := by decide

theorem test_loadProfile :
    let s := after (.loadProfile .a 2 1) ready
    (s.store.active, s.store.bootChoice, answerOn .a s) = (2, 2, some (.ok, [])) := by decide

/-- A commit is ERASING, PROGRAMMING, complete (R167). -/
theorem test_commitProfile :
    let s := afterAll [.commitProfile .a 1 1, .eraseEnd] ready
    let t := after .commitCompletion s
    (s.perf.now, s.store.profiles[(1 : Fin 4)].intact) = (60000, false)
      ∧ (t.perf.now, t.store.profiles[(1 : Fin 4)].intact, t.store.bootChoice, t.perf.instrument.noticesB)
        = (180000, true, 1, 0x800) := by decide

theorem test_setProtection : answerOn .a (after (.setProtection .a 1 3) ready) = some (.protected_, []) := by decide

theorem test_readStatus :
    answerOn .a (after (.readStatus .a) ready)
      = some (.ok, [0, 0, 0, 0, 0, 0, 0, 0, 0, 0, 0, 128, 56, 1, 1, 220, 5, 2, 0, 0, 0, 48, 0, 0, 0, 0, 0, 0,
          3, 0, 0, 0, 0, 0, 0]) := by decide

theorem test_readCounters : (answerOn .a (after (.readCounters .a 0) ready)).map (fun x => x.2.length) = some 88 := by decide

theorem test_readCounters_noise : (answerOn .a (after (.readCounters .a 1) ready)).map (fun x => x.2.length) = some 198 := by
  decide

theorem test_clearCounters :
    let s := after (.clearCounters .a) (inserted (.strike 59 false .expression none) .roll 9000 (playing 100 ready))
    s.perf.instrument.accepted = 1 := by decide

theorem test_readKey :
    (answerOn .a (after (.readKey .a 60) (after (.liveStrike .b 60 1 200 0 0) ready))).map (fun x => x.2.take 2)
      = some [3, 4] := by decide

theorem test_readQueue : answerOn .a (after (.readQueue .a) ready) = some (.ok, [0, 0]) := by decide

theorem test_standby :
    let s := afterAll [.standby .a, .messageSent .a, .standbyEntry .a] ready
    (s.power.state, s.claim.held) = (.standby, none) := by decide

theorem test_wake :
    let s := after (.serviceLine true) { ready with power := { ready.power with state := .standby } }
    (s.power.state, s.power.wakeEnd, (after .stabilisationEnd s).power.state, (after .stabilisationEnd s).perf.now)
      = (.waking, some 8000, .running, 8000) := by decide

theorem test_setNoticeMask : (after (.setNoticeMask .a 0x00F) ready).linkA.mask = 0x00F := by decide

theorem test_setLinkRate :
    let s := afterAll [.setLinkRate .a 3, .messageSent .a] ready
    (s.linkA.rate, (after (.linkRateChange .a) s).linkA.rate) = (.r500k, .r2M) := by decide

theorem test_linkReset :
    let s := afterAll [.linkReset .a, .messageSent .a, .linkResetExecute .a] ready
    (s.power.resetCause, s.linkA.up) = (.linkReset, false) := by decide

theorem test_unknownRequest : answerOn .a (after (.unknownRequest .a 200 []) ready) = some (.unknownRequest, []) := by decide

theorem test_discardRecord :
    let r : LinkRecord := { upLink with slots := [⟨.discard .check 5, false, none⟩] }
    (after (.discardRecord .a) { ready with linkA := r }).linkA.sending = some (.message (.frameError 5 .check) false) := by
  decide

theorem test_breakRearm : (after (.breakRearm .a) (after (.breakDetected .a) ready)).linkA.breakArmed = true := by decide

theorem test_idleTruncation :
    (after (.idleTruncation .a) (after (.breakDetected .a) ready)).linkA.slots = [⟨.discard .truncated 0, false, none⟩] := by
  decide

theorem test_linkDown :
    let s := after (.linkDown .a) ready
    (s.linkA.up, s.claim.held, s.perf.instrument.noticesB) = (false, none, 0x100) := by decide

theorem test_linkUp : (after (.linkUp .a) State.reset).linkA.up = true := by decide

theorem test_notice :
    let s := after (.notice .a) (after .leaseEnd ready)
    (s.linkA.sending, s.perf.instrument.noticesA, s.perf.instrument.noticesB) = (some (.notice 0x100), 0, 0x100) := by decide

theorem test_rollPresentChange :
    let x := (after (.rollPresentChange false) (inState .playing ready)).perf.session
    (x.state, x.faultCause, x.rollRemoved) = (.faulted, .rollRemoved, 1) := by decide

theorem test_monitorLevelChange :
    let s := after (.monitorLevelChange true true) (after (.liveStrike .b 60 1 200 0 0) ready)
    (s.perf.instrument.monitor, s.perf.instrument.keys[59].state, s.perf.instrument.unitsInUse, s.perf.instrument.cut)
      = (.critical, .returning, 0, 1) := by decide

theorem test_powerOn : (after .powerOn ready).claim.held = none := by decide

theorem test_supplyFail : (after .supplyFail ready).power.resetCause = .supplyFail := by decide

theorem test_resetLine :
    let s := after .resetLine ready
    (s.power.state, (after .resetLineDeassertion s).power.state) = (.held, .running) := by decide

/-- A blank sensor line whose paper runs from its left edge to its right. -/
def paper (left right : Nat) : SensorLine := ~~~(((1#1200 <<< (right + 1)) - 1) ^^^ ((1#1200 <<< left) - 1))

theorem test_edges :
    (leftEdge (paper 32 1173), rightEdge (paper 32 1173), goodOffset factoryTracker (paper 32 1173))
      = (some 32, some 1173, some 3) := by decide

theorem test_scanImage :
    let x := (after (.scanImage (paper 28 1171)) (after (.prepare .a) ready)).perf.session
    (x.sensorBuffer.length, x.stepTimer, x.rewindCount) = (1, some 20000, 2) := by decide

theorem test_scanImage_stray : (after (.scanImage 0) ready).perf.session.scanStray = 1 := by decide

theorem test_lineTimerExpiry :
    let s := after .lineTimerExpiry (after (.prepare .a) ready)
    (s.perf.session.state, s.perf.session.faultCause, s.perf.now) = (.faulted, .sensorFault, 20000) := by decide

theorem test_threadingIntervalEnd :
    let s := afterAll [.prepare .a, .scanImage (paper 28 1171), .threadingIntervalEnd] ready
    (s.perf.session.threadingLines, s.perf.detector.goodRun, s.perf.session.intervalEnd) = (1, 1, some 5000) := by decide

/-- PREPARING in pre-roll with an image held. -/
def preRoll (position : Nat) : State :=
  session (fun x => { x with
    threadingStable := true, rollPosition := position, sensorBuffer := [paper 28 1171], stepTimer := none })
    (after (.prepare .a) ready)

theorem test_preRollIntervalEnd :
    let x := (after .preRollIntervalEnd (preRoll 63)).perf.session
    (x.state, x.lastPosition, x.rollPosition, x.intervalEnd) = (.cued, 63, 64, none) := by decide

theorem test_lineIntervalEnd :
    let s := session (fun x => { x with streamBuffer := [0] }) (playing 100 ready)
    let t := after .lineIntervalEnd s
    let u := after .lineIntervalEnd t
    (t.perf.session.state, t.perf.session.intervalEnd, t.perf.session.pt) = (.playing, some 5000, 125)
      ∧ (u.perf.session.state, u.perf.session.pt, u.perf.instrument.noticesA) = (.starved, 150, 0x040) := by decide

theorem test_reverseStep :
    let s := after (.stop .a) (after (.prepare .a) ready)
    (s.perf.session.state, s.perf.session.reverseStepAt, (after .reverseStep s).perf.session.state)
      = (.rewinding, some 125, .idle) := by decide

theorem test_endingLimit :
    let s := session (fun x => { x with state := .ending, endingStart := some 100, intervalEnd := none })
      (inserted (.release 59) .roll 90000 (playing 100 ready))
    let t := after .endingLimit s
    (t.perf.session.pt, t.perf.session.state, t.perf.queue.entries, t.perf.instrument.noticesA)
      = (40100, .idle, [], 0x020) := by decide

theorem test_entryLaunch :
    let s := after .entryLaunch (inserted (.expression .slowOn .bass) .roll 1010 (playing 1000 ready))
    (s.perf.session.pt, s.perf.expression.bass.slowOpen, s.perf.queue.entries) = (1010, true, []) := by decide

theorem test_expressionStep :
    let s := { playing 1000 ready with
      perf := { (playing 1000 ready).perf with expression := ⟨⟨40, true, true, false, false⟩, ⟨60, false, false, false, false⟩, 7, 960, false⟩ } }
    let t := after .expressionStep s
    (t.perf.session.pt, t.perf.expression.bass.level, t.perf.expression.treble.level) = (1040, 45, 58) := by decide

/-- A key in ARMED with a strike of velocity 100 at a fire time. -/
def armed (fire : Nat) : State → State :=
  instr fun i => setKey 39
    { i.keys[39] with state := .armed, holders := ⟨true, false, false⟩, armed := some ⟨fire, 100, 1, 142, ⟨true, false, false⟩, false⟩ } i

theorem test_fireRequest :
    let s := after (.fireRequest 39) (armed 1040 (playing 1000 ready))
    (s.perf.session.pt, s.perf.instrument.keys[39].state, s.perf.instrument.keys[39].channel.setting, s.perf.instrument.unitsInUse)
      = (1040, .drive, .forward 142, 3) := by decide

theorem test_driveEnd :
    let s := afterAll [.fireRequest 39, .driveEnd 39] (armed 1000 (playing 1000 ready))
    (s.perf.instrument.keys[39].state, s.perf.instrument.keys[39].channel.setting, s.perf.instrument.unitsInUse, s.perf.now)
      = (.hold, .forward 40, 1, 8000) := by decide

theorem test_returnExpiry :
    let s := afterAll [.liveStrike .b 60 1 200 0 0, .messageSent .b, .liveRelease .b 60 0 0, .driveEnd 59, .returnExpiry 59] ready
    (s.perf.instrument.keys[59].state, s.perf.now) = (.rest, 14000) := by decide

theorem test_dropMoment :
    let s := after (.fireRequest 39) (instr (fun i => { i with unitsInUse := 46 }) (armed 1000 (playing 1000 ready)))
    let t := after .dropMoment s
    (s.perf.instrument.keys[39].state, t.perf.instrument.keys[39].state, t.perf.instrument.dropped, t.perf.now)
      = (.wait, .rest, 1, 60000) := by decide

/-- The damper goes down, is released halfway, and comes up with its assist (Section 6.11). -/
theorem test_pedal :
    let s := after (.livePedal .b 0 0 0) ready
    let down := after (.goingDownTravelEnd .damper) s
    let up := after (.livePedal .a 0 1 0) (instr (fun i => { i with damper := { i.damper with holders := ⟨false, true, false⟩ } }) down)
    let assisted := after (.assistEnd .damper) up
    let rested := after (.goingUpTravelEnd .damper) assisted
    (down.perf.instrument.damper.state, down.perf.instrument.unitsInUse, down.perf.now) = (.down, 2, 40000)
      ∧ (up.perf.instrument.damper.state, up.perf.instrument.unitsInUse, up.perf.instrument.damper.bridge.setting)
        = (.goingUp, 1, .reverse 160)
      ∧ (assisted.perf.instrument.unitsInUse, assisted.perf.now) = (0, 48000)
      ∧ (rested.perf.instrument.damper.state, rested.perf.now) = (.up, 100000) := by decide

/-! ### The statements' hypotheses are met -/

theorem witness_StepTakesFrontOrIdles : ready.pending = [] ∧ dueCommands ready = [] := by decide

/-- Running short of the top, running to the top, and standing. -/
theorem witness_PerformanceTime :
    let short := { (playing 0 ready).perf with session := { (playing 0 ready).perf.session with ptFraction := 99 } }
    let top := { (playing ptMax ready).perf with session := { (playing ptMax ready).perf.session with ptFraction := 99 } }
    (short.session.ptFraction < 100 ∧ short.session.pt ≤ ptMax ∧ short.session.state.clockRuns = true
        ∧ short.session.pt * 100 + short.session.ptFraction + 1 < (ptMax + 1) * 100)
      ∧ (top.session.ptFraction < 100 ∧ top.session.pt ≤ ptMax ∧ top.session.state.clockRuns = true
        ∧ (ptMax + 1) * 100 ≤ top.session.pt * 100 + top.session.ptFraction + 1)
      ∧ ready.perf.session.ptFraction < 100 ∧ ready.perf.session.pt ≤ ptMax
      ∧ ready.perf.session.state.clockRuns = false := by decide

/-- A link that is DOWN; both slots taken; one slot taken by an earlier item; no slot taken. -/
theorem witness_RequestArrival :
    let full := { ready with linkA := { upLink with slots := [⟨.request (.play .a), false, none⟩, ⟨.request (.play .a), false, none⟩] } }
    let busy := took .a (.play .a) ready
    let bad := Instr.streamLines .a 2 [0]
    (requestLink (.free .a) = some .a ∧ State.reset.receives .a = false
        ∧ nextItem (State.reset.link .a).slots ≠ some (.request (.free .a)))
      ∧ (full.receives .a = true ∧ 2 ≤ (full.link .a).slots.length
        ∧ nextItem (full.link .a).slots ≠ some (.request (.free .a)))
      ∧ (busy.receives .a = true ∧ (busy.link .a).slots.length < 2
        ∧ nextItem (busy.link .a).slots ≠ some (.request (.free .a)) ∧ (Instr.free .a).wellFormed = true
        ∧ (nextItem (busy.link .a).slots).isSome = true)
      ∧ (nextItem (busy.link .a).slots ≠ some (.request bad) ∧ bad.wellFormed = false ∧ requestLink bad = some .a)
      ∧ (ready.receives .a = true ∧ (ready.link .a).slots.length < 2 ∧ nextItem (ready.link .a).slots = none) := by
  decide

theorem witness_ResponseJoinsQueue :
    let m := Message.frameError 0 .check
    (upLink.sending = none ∧ upLink.due = [] ∧ upLink.transmitQueue = [])
      ∧ ({ upLink with sending := some (.message m false) } : LinkRecord).sending ≠ none
      ∧ ({ upLink with due := [.standby] } : LinkRecord).due ≠ []
      ∧ ({ upLink with transmitQueue := [m] } : LinkRecord).transmitQueue = m :: [] := by decide

/-- An always-gated request without the claim; one gated while the other link holds; WRITE-RECORD in a session in progress; and
requests in a state with a dash. -/
theorem witness_GatesRefuse :
    let s1 := took .b (.stop .b) ready
    let s2 := took .b (.standby .b) ready
    let c3 := Instr.writeRecord .b 4 0 [8, 10]
    let s3 := took .b c3 (inState .ending ready)
    let s4 := took .a (.stop .a) (inState .rewinding ready)
    (requestLink (.stop .b) = some .b ∧ Takes s1 .b (.stop .b) ∧ alwaysGated (.stop .b) = true ∧ s1.holds .b = false)
      ∧ (Takes s2 .b (.standby .b) ∧ gatedWhileHeld (.standby .b) = true ∧ s2.otherHolds .b = true)
      ∧ (Takes s3 .b c3 ∧ s3.perf.session.state.inProgress = true ∧ s3.otherHolds .b = true)
      ∧ (Takes s4 .a (.stop .a) ∧ alwaysGated (.stop .a) = true ∧ s4.holds .a = true
        ∧ sessionTakes (.stop .a) s4.perf.session = false) := by
  unfold Takes; decide

/-- Each refusal at the values next to its range. -/
theorem witness_SessionValueRefusals :
    let absent := took .a (.prepare .a) { ready with pins := State.reset.pins }
    let critical := took .a (.play .a) (instr (fun i => { i with monitor := .critical }) (inState .cued ready))
    let sensor := took .a (.streamLines .a 1 [0]) ready
    let many := took .a (.streamLines .a 17 []) (stream (inState .cued ready))
    let zero := took .a (.streamLines .a 0 []) (stream (inState .cued ready))
    let close := took .a (.streamClose .a) ready
    let code := took .a (.selectSource .a 2) ready
    let low := took .a (.setTempo .a 31999) (inState .cued ready)
    let high := took .a (.setTempo .a 200001) (inState .cued ready)
    let trim := took .a (.setTrim .a 8) ready
    let admission := took .a (.setAdmission .a 3) ready
    (absent.holds .a = true ∧ Takes absent .a (.prepare .a) ∧ absent.perf.session.state = .idle
        ∧ absent.perf.session.source = .sensor ∧ absent.pins.rollPresent = false)
      ∧ (Takes critical .a (.play .a) ∧ sessionTakes (.play .a) critical.perf.session = true
        ∧ critical.perf.instrument.monitor = .critical)
      ∧ (Takes sensor .a (.streamLines .a 1 [0]) ∧ sensor.perf.session.source = .sensor)
      ∧ (Takes many .a (.streamLines .a 17 []) ∧ many.perf.session.takesStream = true ∧ 16 < (17 : Byte).toNat)
      ∧ (Takes zero .a (.streamLines .a 0 []) ∧ zero.perf.session.takesStream = true)
      ∧ (Takes close .a (.streamClose .a) ∧ close.perf.session.streamOpen = false)
      ∧ (Takes code .a (.selectSource .a 2) ∧ code.perf.session.state = .idle ∧ 2 ≤ (2 : Byte).toNat)
      ∧ (Takes low .a (.setTempo .a 31999) ∧ sessionTakes (.setTempo .a 31999) low.perf.session = true
        ∧ (31999 : BitVec 24).toNat < 32000)
      ∧ (Takes high .a (.setTempo .a 200001) ∧ 200000 < (200001 : BitVec 24).toNat)
      ∧ (Takes trim .a (.setTrim .a 8) ∧ 8 ≤ (8 : Byte).toNat)
      ∧ (Takes admission .a (.setAdmission .a 3) ∧ 3 ≤ (3 : Byte).toNat) := by
  unfold Takes; decide

theorem witness_RegisterRequests :
    let source := took .a (.selectSource .a 1) ready
    let trim := took .a (.setTrim .a 7) ready
    let admission := took .a (.setAdmission .a 2) ready
    let all := took .a (.setNoticeMask .a 4095) ready
    let beyond := took .a (.setNoticeMask .a 4096) ready
    (Takes source .a (.selectSource .a 1) ∧ source.holds .a = true ∧ source.perf.session.state = .idle)
      ∧ (Takes trim .a (.setTrim .a 7) ∧ trim.holds .a = true ∧ (7 : Byte).toNat ≤ 7)
      ∧ (Takes admission .a (.setAdmission .a 2) ∧ admission.holds .a = true)
      ∧ (Takes all .a (.setNoticeMask .a 4095) ∧ (4095 : BitVec 16).toNat < 4096)
      ∧ (Takes beyond .a (.setNoticeMask .a 4096) ∧ 4096 ≤ (4096 : BitVec 16).toNat) := by
  unfold Takes; decide

/-- The part with no holder. -/
def unclaimed : State := { ready with claim := .reset }

theorem witness_ClaimOutcomes :
    (Takes (took .b (.claim .b) unclaimed) .b (.claim .b) ∧ (took .b (.claim .b) unclaimed).claim.held = none)
      ∧ (Takes (took .a (.claim .a) ready) .a (.claim .a)
        ∧ (took .a (.claim .a) ready).claim.held = some ⟨.a, 1500000, false⟩)
      ∧ Takes (took .b (.claim .b) ready) .b (.claim .b) := by
  unfold Takes; decide

theorem witness_RenewOutcomes :
    (Takes (took .b (.renew .b 1) ready) .b (.renew .b 1) ∧ (took .b (.renew .b 1) ready).holds .b = false)
      ∧ (Takes (took .a (.renew .a 0) ready) .a (.renew .a 0)
        ∧ (took .a (.renew .a 0) ready).claim.held = some ⟨.a, 1500000, false⟩ ∧ (0 : Byte) ≠ 1 ∧ (0 : Byte) ≠ 2)
      ∧ Takes (took .a (.renew .a 2) ready) .a (.renew .a 2) ∧ Takes (took .a (.renew .a 1) ready) .a (.renew .a 1) := by
  unfold Takes; decide

theorem witness_YieldOutcomes :
    (Takes (took .a (.yieldClaim .a) ready) .a (.yieldClaim .a) ∧ (took .a (.yieldClaim .a) ready).holds .a = true)
      ∧ (Takes (took .b (.yieldClaim .b) ready) .b (.yieldClaim .b) ∧ (took .b (.yieldClaim .b) ready).holds .b = false)
      ∧ (Takes (took .b (.askYield .b) ready) .b (.askYield .b) ∧ (took .b (.askYield .b) ready).otherHolds .b = true)
      ∧ (Takes (took .a (.askYield .a) ready) .a (.askYield .a) ∧ (took .a (.askYield .a) ready).holds .a = true)
      ∧ (Takes (took .a (.askYield .a) unclaimed) .a (.askYield .a)
        ∧ (took .a (.askYield .a) unclaimed).claim.held = none) := by
  unfold Takes; decide

/-- The lapse in PLAYING, in FREE and in CUED. -/
theorem witness_LeaseEndLapses :
    ready.running = true ∧ ready.claim.held = some ⟨.a, 1500000, false⟩ ∧ ready.perf.now ≤ 1500000
      ∧ (playing 100 ready).perf.session.state.inPlay = true
      ∧ (inState .free ready).perf.session.state = .free
      ∧ (inState .cued ready).perf.session.state.inPlay = false ∧ (inState .cued ready).perf.session.state ≠ .free := by decide

theorem witness_FreeStarts :
    let s := took .a (.free .a) ready
    Takes s .a (.free .a) ∧ s.holds .a = true ∧ s.perf.session.state = .idle ∧ s.perf.queue.entries = [] := by
  unfold Takes; decide

theorem witness_PrepareStarts :
    let s := took .a (.prepare .a) ready
    let t := took .a (.prepare .a) (session (fun x => { x with source := .stream }) ready)
    (Takes s .a (.prepare .a) ∧ s.holds .a = true ∧ s.perf.session.state = .idle ∧ s.perf.session.sensorBuffer = []
        ∧ s.perf.session.stepTimer = none ∧ s.perf.session.source = .sensor ∧ s.pins.rollPresent = true)
      ∧ (Takes t .a (.prepare .a) ∧ t.holds .a = true ∧ t.perf.session.state = .idle ∧ t.perf.session.source = .stream
        ∧ t.perf.session.sensorBuffer = [] ∧ t.perf.session.stepTimer = none) := by
  unfold Takes; decide

/-- PAUSED on the way to ENDING, with an entry of the roll left. -/
def pausedEnding : State :=
  session (fun x => { x with state := .paused, resumeTarget := some .ending, endingStart := some 100, intervalEnd := none })
    (inserted (.release 59) .roll 90000 (playing 100 ready))

theorem witness_PlayResumes :
    let s := took .a (.play .a) (inState .cued ready)
    let t := took .a (.play .a) pausedEnding
    (Takes s .a (.play .a) ∧ s.holds .a = true ∧ s.perf.session.state = .cued ∧ s.perf.instrument.monitor ≠ .critical
        ∧ noneDue s.perf ∧ s.perf.session.resumeTarget ≠ some .ending)
      ∧ (Takes t .a (.play .a) ∧ t.holds .a = true ∧ t.perf.session.state = .paused
        ∧ t.perf.instrument.monitor ≠ .critical ∧ noneDue t.perf ∧ t.perf.session.resumeTarget = some .ending
        ∧ rollIsDone t.perf = false) := by
  unfold Takes noneDue; decide

theorem witness_StartLaunchesDue :
    (Takes (took .a (.free .a) ready) .a (.free .a) ∧ (took .a (.free .a) ready).holds .a = true
        ∧ (took .a (.free .a) ready).perf.session.state = .idle)
      ∧ Takes (took .a (.play .a) pausedEnding) .a (.play .a)
      ∧ (Takes (took .a (.setTempo .a 32000) (playing 100 ready)) .a (.setTempo .a 32000)
        ∧ 32000 ≤ (32000 : BitVec 24).toNat) := by
  unfold Takes; decide

theorem witness_PausePauses :
    let s := took .a (.pause .a) (playing 100 ready)
    Takes s .a (.pause .a) ∧ s.holds .a = true ∧ s.perf.session.state = .playing := by
  unfold Takes; decide

/-- A stop to IDLE and a stop to REWINDING. -/
theorem witness_StopStops :
    let s := took .a (.stop .a) (playing 100 ready)
    let t := took .a (.stop .a) (session (fun x => { x with state := .playing, rewindCount := 1 }) ready)
    (Takes s .a (.stop .a) ∧ s.holds .a = true ∧ s.perf.session.state ≠ .idle ∧ s.perf.session.state ≠ .rewinding
        ∧ s.perf.session.source = .stream)
      ∧ (Takes t .a (.stop .a) ∧ t.holds .a = true ∧ t.perf.session.state = .playing
        ∧ ¬ (t.perf.session.state = .free ∨ t.perf.session.source = .stream ∨ t.pins.rollPresent = false
          ∨ t.perf.session.rewindCount = 0)) := by
  unfold Takes; decide

theorem witness_TempoChanges :
    let s := took .a (.setTempo .a 200000) (playing 100 ready)
    Takes s .a (.setTempo .a 200000) ∧ s.holds .a = true ∧ s.perf.session.state = .playing
      ∧ (200000 : BitVec 24).toNat ≤ 200000
      ∧ noneDue { s.perf with queue := s.perf.queue.rescale s.perf.session.pt 200000 s.perf.session.tempo }
      ∧ notCompleting { s.perf with queue := s.perf.queue.rescale s.perf.session.pt 200000 s.perf.session.tempo } := by
  unfold Takes noneDue notCompleting; decide

/-- A roll entry after PT, one not after PT, and a link's entry. -/
theorem witness_RescaleTimes :
    let q := (inserted (.release 1) .linkA 300 (inserted (.release 1) .roll 200 (inserted (.release 1) .roll 100 ready))).perf.queue
    (q.entries.map fun x => (decide (x.origin = .roll), decide (100 < x.sounding)))
      = [(true, false), (true, true), (false, true)] := by decide

theorem witness_StreamLinesAndClose :
    let c := Instr.streamLines .a 1 [0]
    let s := took .a c (stream (inState .preparing ready))
    let t := took .a c (stream (inState .starved ready))
    let u := took .a (.streamClose .a) (stream (inState .paused (session (fun x => { x with resumeTarget := some .playing }) ready)))
    let v := took .a (.streamClose .a) (stream (inState .starved ready))
    (Takes s .a c ∧ s.holds .a = true ∧ s.perf.session.takesStream = true ∧ 1 ≤ (1 : Byte).toNat
        ∧ (s.perf.session.streamBuffer ++ ([0].map trackLineOf).take (128 - s.perf.session.streamBuffer.length)).length
          < s.map.tracker.soundingDistance + 32)
      ∧ (Takes t .a c ∧ t.perf.session.takesStream = true ∧ t.perf.session.state = .starved)
      ∧ (Takes u .a (.streamClose .a) ∧ u.holds .a = true ∧ u.perf.session.takesStream = true
        ∧ u.perf.session.state = .paused)
      ∧ (Takes v .a (.streamClose .a) ∧ v.perf.session.takesStream = true ∧ v.perf.session.streamBuffer = []) := by
  unfold Takes; decide

/-- One line short of the sounding distance and 32, and the line that makes it. -/
theorem witness_StreamPreRoll :
    let c := Instr.streamLines .a 1 [0]
    let held (n : Nat) := session (fun x => { x with streamBuffer := List.replicate n 0 }) (stream (inState .preparing ready))
    let s := took .a c (held 95)
    let t := took .a (.streamClose .a) (held 95)
    let d := s.map.tracker.soundingDistance
    (s.holds .a = true ∧ s.perf.session.takesStream = true ∧ s.perf.session.state = .preparing
        ∧ s.perf.session.rollPosition = 0 ∧ 48 ≤ d ∧ d ≤ 96 ∧ Takes s .a c
        ∧ (s.perf.session.streamBuffer
            ++ ([0].map trackLineOf).take (128 - s.perf.session.streamBuffer.length)).length = d + 32)
      ∧ (t.perf.session.takesStream = true ∧ Takes t .a (.streamClose .a)
        ∧ t.perf.session.streamBuffer.length < d + 32) := by
  unfold Takes; decide

theorem witness_LiveRefusals :
    let c := Instr.liveStrike .b 88 2 0 0 0
    let bad := Instr.liveStrike .b 89 2 0 0 0
    let refused := took .b c { ready with claim := { ready.claim with admission := .none } }
    let s := took .b c ready
    let critical := took .b c (instr (fun i => { i with monitor := .critical }) ready)
    let full := took .b c { inState .free ready with
      perf := { (inState .free ready).perf with queue := ⟨List.replicate 512 default, 0, 512, 0⟩ } }
    (requestLink c = some .b ∧ isLive c = true ∧ Takes refused .b c ∧ refused.admits .b = false)
      ∧ (Takes (took .b bad ready) .b bad ∧ (took .b bad ready).admits .b = true ∧ liveFieldsValid bad = false)
      ∧ (Takes critical .b c ∧ critical.admits .b = true ∧ liveFieldsValid c = true
        ∧ critical.perf.instrument.monitor = .critical)
      ∧ (Takes s .b c ∧ s.admits .b = true ∧ s.perf.instrument.monitor ≠ .critical ∧ 0 < livePlaces c
        ∧ s.perf.session.state.clockRuns = false)
      ∧ (Takes full .b c ∧ full.admits .b = true ∧ full.perf.instrument.monitor ≠ .critical
        ∧ full.perf.session.state.clockRuns = true ∧ full.perf.queue.entries.length = 512) := by
  unfold Takes; decide

/-- An entry that is due, one that is not, and one at a standing clock; with an equal sounding time already queued. -/
theorem witness_EntryInsertion :
    let p := (inserted (.release 1) .roll 300 (playing 100 ready)).perf
    let x := liveEntry ready .a (.release 1) 300 p.queue
    p.session.state.clockRuns = true ∧ (liveEntry ready .a (.release 1) 150 p.queue).launch ≤ p.session.pt
      ∧ p.session.pt < x.launch ∧ ready.perf.session.state.clockRuns = false
      ∧ inOrder p.queue.entries ∧ ∀ y ∈ p.queue.entries, y.order < x.order := by
  unfold inOrder; decide

theorem witness_LiveStrikes :
    let at_ := Instr.liveStrike .b 88 6 0 0 1
    let now := Instr.liveStrike .b 1 1 255 0 0
    let atOnly := Instr.liveStrike .b 1 2 0 65535 0
    let holdOnly := Instr.liveStrike .b 1 4 0 0 65535
    LiveTaken (took .b at_ (playing 100 ready)) .b at_ ∧ (88 : Byte).toNat = (87 : Key).val + 1
      ∧ LiveTaken (took .b now ready) .b now ∧ (1 : Byte).toNat = (0 : Key).val + 1
      ∧ LiveTaken (took .b atOnly (playing 100 ready)) .b atOnly
      ∧ LiveTaken (took .b holdOnly (playing 100 ready)) .b holdOnly := by
  unfold LiveTaken Takes; decide

theorem witness_LiveReleasesAndPedals :
    let now := Instr.liveRelease .b 1 0 0
    let at_ := Instr.liveRelease .b 1 2 5
    let down := Instr.livePedal .b 0 0 0
    let up := Instr.livePedal .b 1 1 0
    let downAt := Instr.livePedal .b 0 2 5
    let upAt := Instr.livePedal .b 1 3 5
    LiveTaken (took .b now ready) .b now ∧ LiveTaken (took .b at_ (playing 100 ready)) .b at_
      ∧ LiveTaken (took .b down ready) .b down ∧ LiveTaken (took .b up ready) .b up
      ∧ LiveTaken (took .b downAt (playing 100 ready)) .b downAt
      ∧ LiveTaken (took .b upAt (playing 100 ready)) .b upAt := by
  unfold LiveTaken Takes; decide

theorem witness_SettleCompletes :
    ready.perf.session.state ≠ .ending
      ∧ (inState .ending ready).perf.session.state = .ending ∧ rollIsDone (inState .ending ready).perf = true := by decide

theorem witness_MapWrites :
    let w1 := RecordWrite.key 0 factoryKey
    let w2 := RecordWrite.expression factoryExpression
    let w4 := RecordWrite.supply ⟨96, 250⟩
    let c (w : RecordWrite) := Instr.writeRecord .a (recordSelector w) (recordIndex w) (recordContents w)
    let tracker := Instr.writeRecord .a 3 0 []
    (ready.otherHolds .a = false ∧ w1.valid = true ∧ Takes (took .a (c w1) ready) .a (c w1)
        ∧ recordSelector w1 ≠ 2 ∧ recordSelector w1 ≠ 4 ∧ recordSelector w1 ≠ 3)
      ∧ (w2.valid = true ∧ Takes (took .a (c w2) ready) .a (c w2) ∧ recordSelector w2 = 2)
      ∧ (w4.valid = true ∧ Takes (took .a (c w4) ready) .a (c w4) ∧ recordSelector w4 = 4)
      ∧ (Takes (took .a tracker (inState .cued ready)) .a tracker ∧ (inState .cued ready).perf.session.state ≠ .idle)
      ∧ (Takes (took .a (.writeRecord .a 5 0 []) ready) .a (.writeRecord .a 5 0 []) ∧ recordOf 5 0 [] = none) := by
  unfold Takes; decide

theorem witness_MapWrites_tracker :
    (RecordWrite.tracker factoryTracker).valid = true
      ∧ recordOf 3 0 (recordContents (.tracker factoryTracker)) = some (.tracker factoryTracker) := by decide

/-- A store with a commit in progress. -/
def committing : State := { ready with store := { ready.store with commit := some ⟨1, factoryMap, true, 0, false⟩ } }

theorem witness_ProfileLoads :
    let c := Instr.loadProfile .a 3 1
    let damaged := { ready with store := { ready.store with profiles := ready.store.profiles.set 3 ⟨factoryMap, false, .open_⟩ } }
    (Takes (took .a (.loadProfile .a 4 0) ready) .a (.loadProfile .a 4 0) ∧ ready.otherHolds .a = false)
      ∧ Takes (took .a (.loadProfile .a 0 2) ready) .a (.loadProfile .a 0 2)
      ∧ (Takes (took .a c committing) .a c ∧ (took .a c committing).store.commit ≠ none)
      ∧ (Takes (took .a c (inState .free ready)) .a c ∧ (took .a c (inState .free ready)).quiet = false)
      ∧ (Takes (took .a c damaged) .a c ∧ (took .a c damaged).quiet = true
        ∧ (took .a c damaged).store.profiles[(3 : Fin 4)].intact = false)
      ∧ (Takes (took .a c ready) .a c ∧ (took .a c ready).quiet = true ∧ ready.store.commit = none
        ∧ ready.store.profiles[(3 : Fin 4)].intact = true ∧ ready.perf.instrument.waitList = []) := by
  unfold Takes; decide

theorem witness_CommitsBeginAndRun :
    let c := Instr.commitProfile .a 1 0
    let fixed := Instr.commitProfile .a 0 0
    (Takes (took .a (.commitProfile .a 4 0) ready) .a (.commitProfile .a 4 0) ∧ ready.otherHolds .a = false)
      ∧ (Takes (took .a fixed ready) .a fixed ∧ ready.store.profiles[(0 : Fin 4)].protection = .fixed)
      ∧ (Takes (took .a c committing) .a c ∧ committing.store.profiles[(1 : Fin 4)].protection = .open_
        ∧ committing.store.commit ≠ none)
      ∧ (Takes (took .a c ready) .a c ∧ ready.store.commit = none)
      ∧ (committing.store.commit = some ⟨1, factoryMap, true, 0, false⟩ ∧ committing.perf.now ≤ 0 + 60000) := by
  unfold Takes; decide

theorem witness_ProtectionChanges :
    let c := Instr.setProtection .a 1 1
    let beyond := Instr.setProtection .a 1 4
    let fixed := Instr.setProtection .a 0 0
    let other := Instr.setProtection .b 1 1
    (Takes (took .b other ready) .b other ∧ ready.otherHolds .b = true ∧ ready.otherHolds .a = false
        ∧ committing.otherHolds .a = false)
      ∧ (Takes (took .a beyond ready) .a beyond ∧ 4 ≤ (4 : Byte).toNat)
      ∧ (Takes (took .a c committing) .a c ∧ committing.store.commit ≠ none)
      ∧ (Takes (took .a c ready) .a c ∧ ready.store.profiles[(1 : Fin 4)].protection = .open_)
      ∧ (Takes (took .a fixed ready) .a fixed ∧ ready.store.profiles[(0 : Fin 4)].protection = .fixed
        ∧ ready.store.commit = none) := by
  unfold Takes; decide

theorem witness_ReadsAndClear :
    Takes (took .a (.readStatus .a) ready) .a (.readStatus .a)
      ∧ Takes (took .a (.readCounters .a 0) ready) .a (.readCounters .a 0)
      ∧ Takes (took .a (.readCounters .a 2) ready) .a (.readCounters .a 2)
      ∧ Takes (took .a (.readKey .a 88) ready) .a (.readKey .a 88)
      ∧ Takes (took .a (.readKey .a 89) ready) .a (.readKey .a 89)
      ∧ Takes (took .a (.readQueue .a) ready) .a (.readQueue .a)
      ∧ Takes (took .a (.setLinkRate .a 3) ready) .a (.setLinkRate .a 3)
      ∧ Takes (took .a (.setLinkRate .a 4) ready) .a (.setLinkRate .a 4)
      ∧ Takes (took .a (.linkReset .a) ready) .a (.linkReset .a) ∧ ready.otherHolds .a = false
      ∧ Takes (took .a (.unknownRequest .a 0 []) ready) .a (.unknownRequest .a 0 [])
      ∧ Takes (took .a (.clearCounters .a) ready) .a (.clearCounters .a) := by
  unfold Takes; decide

theorem witness_StandbyAndWake :
    let c := Instr.standby .a
    let due : State := { ready with linkA := { upLink with due := [.standby] } }
    let waking : State := { ready with power := { ready.power with state := .waking, wakeEnd := some 8000 } }
    (Takes (took .a c (inState .free ready)) .a c ∧ (took .a c (inState .free ready)).quiet = false
        ∧ ready.otherHolds .a = false)
      ∧ (Takes (took .a c ready) .a c ∧ (took .a c ready).quiet = true ∧ ready.store.commit = none)
      ∧ (due.power.state = .running ∧ AfterAction.standby ∈ (due.link .a).due ∧ due.quiet = true)
      ∧ (AfterAction.standby ∈ ((inState .free due).link .a).due ∧ (inState .free due).quiet = false)
      ∧ (waking.power.state = .waking ∧ waking.power.wakeEnd = some 8000 ∧ waking.perf.now ≤ 8000) := by
  unfold Takes; decide

theorem witness_Resets :
    ready.store.commit = none ∧ ready.pins.resetLine = false ∧ ready.power.state ≠ .held
      ∧ AfterAction.linkReset ∈ (({ ready with linkA := { upLink with due := [.linkReset] } } : State).link .a).due
      ∧ ({ ready with power := { ready.power with state := .held } } : State).power.state = .held
      ∧ committing.store.commit = some ⟨1, factoryMap, true, 0, false⟩ := by decide

/-- Samples with a high start bit, with a bit time of unlike samples, with a low stop bit, and clean. -/
theorem witness_CharacterSamples :
    let clean := cleanCharacter 0x55 true
    majority (clean ||| 7) 0 = true ∧ (noisy (clean ^^^ 8) = true ∧ majority (clean ^^^ 8) 0 = false
        ∧ majority (clean ^^^ 8) 10 = true)
      ∧ (noisy (clean &&& 0x3FFFFFFF) = false ∧ majority (clean &&& 0x3FFFFFFF) 10 = false)
      ∧ noisy clean = false := by decide

theorem witness_ReceiverTable :
    ready.receives .a = true ∧ receivedOf (cleanCharacter 250 false) = some (.clean 250 false)
      ∧ receivedOf (cleanCharacter 0 false) = some (.clean 0 false)
      ∧ receivedOf (cleanCharacter 251 false) = some (.clean 251 false)
      ∧ receivedOf (cleanCharacter 1 true) = some (.clean 1 true)
      ∧ receivedOf (cleanCharacter 1 true ^^^ 1) = some (.spoilt .noise) ∧ receivedOf (BitVec.allOnes 33) = none
      ∧ State.reset.receives .a = false ∧ requestOf .a 1 [] = some (.claim .a) ∧ requestOf .a 1 [0] = none := by decide

theorem witness_BreaksOpen :
    let opened : State := { ready with linkA := { upLink with receiver := .awaitHeader } }
    ready.receives .a = true ∧ (ready.link .a).breakArmed = true ∧ (ready.link .a).receiver = .waitBreak
      ∧ opened.receives .a = true ∧ (opened.link .a).receiver ≠ .waitBreak
      ∧ ({ ready with power := { ready.power with state := .standby } } : State).power.state = .standby
      ∧ (State.reset.link .a).up = false := by decide

theorem witness_LinkDownUp :
    (ready.link .a).up = true ∧ (∀ x ∈ (ready.link .a).slots, x.after = none) ∧ (ready.link .a).due = []
      ∧ ready.holds .a = true ∧ ready.holds .b = false ∧ (ready.link .b).up = true
      ∧ (playing 100 ready).perf.session.state.inPlay = true ∧ (inState .free ready).perf.session.state = .free
      ∧ (State.reset.link .a).up = false ∧ State.reset.power.state ≠ .held := by decide

theorem witness_MessagesGo :
    let m := Message.frameError 0 .check
    let item : Slot := ⟨.discard .check 0, true, none⟩
    let held : LinkRecord := { upLink with slots := [⟨.discard .check 0, false, none⟩] }
    let sent : LinkRecord := { upLink with sending := some (.message m false), slots := [item] }
    let follows : LinkRecord := { sent with slots := [{ item with after := some .standby }] }
    let noticed : State := instr (fun i => { i with noticesA := 1 }) ready
    ready.receives .a = true ∧ nextItem held.slots = some (.discard .check 0)
      ∧ (sent.sending = some (.message m false) ∧ sent.slots = item :: [] ∧ item.answered = true ∧ sent.due = []
        ∧ item.after = none ∧ sent.transmitQueue = [])
      ∧ ({ sent with transmitQueue := [m] } : LinkRecord).transmitQueue = m :: []
      ∧ follows.slots = { item with after := some .standby } :: []
      ∧ ({ upLink with sending := some (.notice 1) } : LinkRecord).sending = some (.notice 1)
      ∧ ({ upLink with due := [.rate .r2M] } : LinkRecord).due = [.rate .r2M] ∧ Rate.r2M ≠ upLink.rate
      ∧ ({ upLink with receiver := .awaitHeader } : LinkRecord).receiver ≠ .waitBreak
      ∧ (pendingNotices .a noticed.perf.instrument &&& (noticed.link .a).mask ≠ 0 ∧ (noticed.link .a).sending = none) := by
  decide

/-- The longest stream, a strike with every field, and the longest record. -/
theorem witness_RequestRoundTrip :
    (Instr.streamLines .a 19 (List.replicate 19 5)).wellFormed = true
      ∧ (Instr.liveStrike .a 1 7 2 3 4).wellFormed = true ∧ (Instr.writeRecord .a 3 0 (List.replicate 203 1)).wellFormed = true
      ∧ (Instr.unknownRequest .a 0 (List.replicate 250 0)).wellFormed = true ∧ requestLink (.play .a) = some .a := by decide

theorem witness_FramesReceived :
    requestLink (.setTempo .a 80000) = some .a ∧ (Instr.setTempo .a 80000).wellFormed = true
      ∧ takeFrame .a (frameOf 22 (requestBody (.setTempo .a 80000))) { upLink with receiver := .awaitHeader }
        = { offer (.request (.setTempo .a 80000)) upLink with receiver := .waitBreak } := by decide

theorem witness_PinChanges :
    ready.running = true ∧ (inState .paused ready).perf.session.source = .sensor
      ∧ (inState .paused ready).perf.session.state.inProgress = true
      ∧ (inState .rewinding ready).perf.session.state = .rewinding
      ∧ ready.perf.instrument.monitor = .normal
      ∧ (instr (fun i => { i with monitor := .low }) ready).perf.instrument.monitor ≠ .normal
      ∧ (playing 100 ready).perf.session.state.inPlay = true := by decide

theorem witness_ScanImages :
    let s := session (fun x => { x with stepTimer := some 20000 }) (inState .cued ready)
    ready.running = true ∧ ready.perf.session.stepTimer = none ∧ ready.perf.session.state ≠ .starved
      ∧ ready.perf.session.state ≠ .preparing
      ∧ s.perf.session.state = .cued ∧ s.perf.session.stepTimer.isSome = true
      ∧ s.perf.session.stepTimer = some 20000 ∧ s.perf.now ≤ 20000 := by decide

/-- Threading and pre-roll, at an interval end and at an awaited image; the last line before THREAD-FAULT; CUED and a lost track next. -/
theorem witness_ThreadingAndPreRoll :
    let threading := after (.prepare .a) ready
    let held := session (fun x => { x with sensorBuffer := [paper 28 1171] }) threading
    let waiting := session (fun x => { x with intervalEnd := none, awaitingImage := true }) threading
    let fault := session (fun x => { x with sensorBuffer := [0], threadingLines := 3999 }) threading
    let lost := { preRoll 63 with perf := { (preRoll 63).perf with detector := { (preRoll 63).perf.detector with badRun := 23 } } }
    (threading.running = true ∧ threading.perf.session.state = .preparing ∧ threading.perf.session.source = .sensor
        ∧ threading.perf.now ≤ 2500 ∧ threading.perf.session.intervalEnd = some 2500
        ∧ threading.perf.session.threadingStable = false ∧ threading.perf.session.sensorBuffer = [])
      ∧ held.perf.session.sensorBuffer = paper 28 1171 :: []
      ∧ (waiting.perf.session.awaitingImage = true ∧ waiting.perf.session.stepTimer.isSome = true
        ∧ waiting.perf.session.sensorBuffer = [])
      ∧ (fault.perf.session.threadingLines + 1 = 4000 ∧ (fault.perf.detector.trackEdges factoryTracker 0).goodRun = 0)
      ∧ ((preRoll 63).perf.session.threadingStable = true ∧ (preRoll 63).perf.session.intervalEnd = some 2500
        ∧ (preRoll 63).map.tracker.soundingDistance = 64)
      ∧ (lost.perf.detector.trackEdges factoryTracker (paper 28 1000)).badRun = 24 := by decide

theorem witness_PlayingLines :
    let s := playing 100 ready
    let sensor := session (fun x => { x with state := .playing, intervalEnd := some 2500, sensorBuffer := [0] }) ready
    (s.running = true ∧ s.perf.session.state = .playing ∧ s.perf.session.intervalEnd = some 2500 ∧ s.perf.now ≤ 2500
        ∧ s.perf.session.source = .stream ∧ s.perf.session.streamBuffer = [] ∧ s.perf.session.streamOpen = true)
      ∧ (session (fun x => { x with streamBuffer := [0], rollPosition := 4194303 }) s).perf.session.streamBuffer = 0 :: []
      ∧ (sensor.perf.session.source = .sensor ∧ sensor.perf.session.sensorBuffer = 0 :: [])
      ∧ (session (fun x => { x with streamOpen := false }) s).perf.session.streamOpen = false := by decide

theorem witness_RollEnds :
    let s := session (fun x => { x with state := .rewinding, rewindCount := 1, reverseStepAt := some 125 }) ready
    let e := session (fun x => { x with state := .ending, endingStart := some 100, intervalEnd := none })
      (inserted (.release 59) .roll 90000 (playing 100 ready))
    (s.running = true ∧ s.perf.session.state = .rewinding ∧ s.perf.session.reverseStepAt = some 125 ∧ s.perf.now ≤ 125)
      ∧ (e.perf.session.state = .ending ∧ e.perf.session.endingStart = some 100 ∧ e.perf.session.pt ≤ 100 + 40000
        ∧ e.perf.session.ptFraction < 100) := by decide

theorem witness_Launches :
    let s := inserted .endMark .roll 1010 (playing 1000 ready)
    s.running = true ∧ s.perf.session.state.clockRuns = true ∧ leastLaunch s.perf.queue = some 1010
      ∧ s.perf.session.ptFraction < 100 ∧ s.perf.session.pt ≤ 4294967295 := by decide

theorem witness_HalvesShadeAndStep :
    let s := playing 1000 ready
    s.running = true ∧ s.perf.session.state.clockRuns = true ∧ s.perf.session.ptFraction < 100
      ∧ 0 < s.map.expression.stepPeriod ∧ nextStep s.map s.perf.session.pt s.perf.expression ≤ 4294967295 := by decide

/-- A disabled key, and arrivals by the states of an enabled key. -/
theorem witness_StrikesFormAndArrive :
    let s := playing 1000 ready
    let m := s.moment
    let off : Moment := { m with map := { m.map with keys := m.map.keys.set 39 { factoryKey with enabled := false } } }
    let a : Arrival := ⟨.roll, some 1400, false, .fixed 255⟩
    let i := (armed 1290 s).perf.instrument
    off.map.keys[(39 : Key)].enabled = false ∧ m.map.keys[(39 : Key)].enabled = true
      ∧ (s.perf.instrument.keys[(39 : Key)].state = .rest
        ∧ m.pt < (newStrike m s.perf.expression 39 a s.perf.instrument).fire)
      ∧ (i.keys[(39 : Key)].state = .armed ∧ (newStrike m s.perf.expression 39 a i).fire = 1290 ∧ m.pt < 1290) := by decide

theorem witness_KeysFire :
    let s := armed 1040 (playing 1000 ready)
    let t := instr (fun i => { i with unitsInUse := 46 }) (armed 1000 (playing 1000 ready))
    (s.running = true ∧ s.perf.session.ptFraction < 100 ∧ s.perf.session.pt ≤ 4294967295
        ∧ s.perf.instrument.keys[(39 : Key)].state = .armed ∧ s.perf.instrument.waitList = []
        ∧ s.perf.session.pt < 1040 ∧ s.perf.session.state.clockRuns = true
        ∧ s.perf.instrument.unitsInUse + 3 ≤ effectiveCapacity s.perf.instrument.monitor s.map.supply.capacity)
      ∧ (effectiveCapacity t.perf.instrument.monitor t.map.supply.capacity < t.perf.instrument.unitsInUse + 3
        ∧ t.perf.instrument.damperDown = false ∧ 1000 ≤ t.perf.session.pt) := by decide

theorem witness_KeysReturn :
    let driven := after (.fireRequest 39) (armed 1000 (playing 1000 ready))
    let released := after (.driveEnd 39) (instr (fun i =>
      setKey 39 { i.keys[39] with holders := .empty } i) driven)
    let waiting := after (.fireRequest 39) (instr (fun i => { i with unitsInUse := 46 }) (armed 1000 (playing 1000 ready)))
    (driven.running = true ∧ driven.perf.now ≤ 8000 ∧ driven.perf.instrument.keys[(39 : Key)].state = .drive
        ∧ driven.perf.instrument.keys[(39 : Key)].driveEnd = some 8000
        ∧ driven.perf.instrument.keys[(39 : Key)].pending = none
        ∧ driven.perf.instrument.keys[(39 : Key)].holders.isEmpty = false)
      ∧ (released.perf.instrument.keys[(39 : Key)].returnEnd = some 14000 ∧ released.perf.now ≤ 14000
        ∧ released.perf.instrument.keys[(39 : Key)].state = .returning
        ∧ released.perf.instrument.keys[(39 : Key)].pending = none)
      ∧ (waiting.perf.instrument.waitList = [⟨.key 39, 0, 60000⟩]
        ∧ waiting.perf.instrument.keys[(39 : Key)].pending = none) := by decide

theorem witness_PedalsMoveAndTravel :
    let s := after (.livePedal .b 0 0 0) ready
    let t := after (.livePedal .b 0 1 0) (after (.messageSent .b) (after (.goingDownTravelEnd .damper) s))
    let rested := after (.assistEnd .damper) t
    let i := ready.perf.instrument
    (i.damper.holders.isEmpty = true ∧ i.waitList = [] ∧ i.damper.charge ≤ i.unitsInUse
        ∧ i.unitsInUse + 6 ≤ effectiveCapacity i.monitor ready.map.supply.capacity
        ∧ 0 < (1000 - i.damper.position 0) * ready.map.damper.downTravel / 1000 * 100)
      ∧ (s.perf.instrument.damper.state = .goingDown ∧ s.perf.instrument.damper.travel = some ⟨0, 0, 40000⟩
        ∧ s.perf.instrument.damper.holders.has .linkB = true
        ∧ (s.perf.instrument.damper.holders.erase .linkB).isEmpty = true)
      ∧ (t.perf.instrument.damper.assistEnd = some 48000 ∧ t.perf.now ≤ 48000)
      ∧ (rested.perf.instrument.damper.state = .goingUp ∧ rested.perf.instrument.damper.travel = some ⟨40000, 1000, 100000⟩
        ∧ rested.perf.instrument.damper.assistEnd = none) := by decide

/-- Units over the capacity, and a list with a head that fits. -/
theorem witness_GrantPass :
    effectiveCapacity .normal 48 < 49 ∧ (0 : Nat) ≤ effectiveCapacity .low 49 ∧ effectiveCapacity .low 49 = 24 := by decide

/-- A good line, a bad line, and a bad line that makes the run 24. -/
theorem witness_DetectorReads :
    goodOffset factoryTracker (paper 32 1173) = some 3 ∧ goodOffset factoryTracker (paper 28 1000) = none
      ∧ (Detector.reset.trackEdges factoryTracker (paper 28 1000)).badRun < 24
      ∧ (({ Detector.reset with badRun := 23 } : Detector).trackEdges factoryTracker (paper 28 1000)).badRun = 24 := by decide

/-- The invariants hold of a part in the middle of a piece, and its next step answers a next state. -/
theorem witness_Invariants :
    let s := { inserted (.release 59) .roll 90000 (playing 100 ready) with pending := [.lineIntervalEnd] }
    queueInOrder s ∧ buffersFit s ∧ idleIsClear s := by
  unfold queueInOrder buffersFit idleIsClear inOrder; decide

theorem witness_Invariants_holder : holderIsUp ready := by
  intro h hh
  simp only [ready] at hh
  cases hh
  rfl

theorem witness_Invariants_step :
    (match step { inserted (.release 59) .roll 90000 (playing 100 ready) with pending := [.lineIntervalEnd] } with
      | .next t => t.perf.session.state
      | _ => .idle) = .starved := by decide

/-! ### Clauses in which several things stand together -/

/-- The part in a power state. -/
def power (x : PowerState) (s : State) : State := { s with power := { s.power with state := x } }

/-- A key's drive ends at a moment. -/
def driveEndsAt (k : Key) (t : Nat) : State → State :=
  instr fun i => setKey k { i.keys[k] with state := .drive, driveEnd := some t } i

/-- A STARVED stream with 31 lines held. -/
def starved31 : State :=
  session (fun x => { x with
    streamBuffer := List.replicate 31 0, frameIndex := 5, rollPosition := 70, intervalEnd := none })
    (stream (inState .starved ready))

/-- A STARVED SENSOR session with a step outstanding. -/
def starvedSensor : State :=
  session (fun x => { x with rollPosition := 70, stepTimer := some 20000 }) (inState .starved ready)

/-- A session in a state at a PT, with the PT of the last expression step. -/
def stepped (pt last : Nat) (x : SessionState) : State :=
  let s := session (fun y => { y with pt := pt, state := x }) ready
  { s with perf := { s.perf with now := 30, expression := { s.perf.expression with lastStep := last } } }

/-- The expression record with a step period of 5 ms. -/
def fiveMs : RecordWrite := .expression { factoryExpression with stepPeriod := 5 }

/-- A commit to profile 1, which is the boot choice too. -/
def committingBoot : State :=
  { ready with store := { ready.store with
      commit := some ⟨1, factoryMap, true, 0, false⟩
      bootChoice := 1
      profiles := ready.store.profiles.set 1 { ready.store.profiles[(1 : Fin 4)] with intact := false } } }

/-- Link A with a response made whose end an action follows. -/
def followed (a : AfterAction) : State :=
  { ready with linkA := { upLink with slots := [⟨.request (.standby .a), true, some a⟩] } }

/-- A strike of velocity 100 with a fire time and contributors. -/
def strikeAt (fire : Nat) (o : Origins) : Strike := ⟨fire, 100, 1, 142, o, false⟩

/-- An instrument on which the roll holds keys in WAIT (with a pending strike), HOLD, SHED and ARMED, the damper in DOWN, and the shift
pedal, which waits. -/
def busy : Instrument :=
  let own : Origins := ⟨true, false, false⟩
  let i := ready.perf.instrument
  let put (k : Key) (r : KeyRecord) (i : Instrument) : Instrument := setKey k { r with holders := own } i
  let i := put 10
    { i.keys[10] with
      state := .wait
      armed := some (strikeAt 5 own)
      pending := some (strikeAt 900 ⟨false, true, false⟩)
      requestMoment := some 0 } i
  let i := put 11 { i.keys[11] with state := .hold, holdStart := some 0 } i
  let i := put 12 { i.keys[12] with state := .shed, returnEnd := some 5000 } i
  let i := put 13 { i.keys[13] with state := .armed, armed := some (strikeAt 9000 own) } i
  { i with
    damper := { i.damper with state := .down, holders := own }
    shift := { i.shift with requestMoment := some 0, holders := own }
    damperDown := true
    unitsInUse := 3
    waitList := [⟨.pedal .shift, 0, 60000⟩, ⟨.key 10, 0, 60000⟩] }

/-- The busy instrument under a stream that plays. -/
def busyPlaying : State := instr (fun _ => busy) (playing 100 ready)

/-- A full queue. -/
def fullQueue (s : State) : State := { s with perf := { s.perf with queue := ⟨List.replicate 512 default, 0, 512, 0⟩ } }

theorem test_standby_stray : (after (.scanImage 0) (power .standby ready)).perf.session.scanStray = 1 := by decide

theorem test_standby_lease :
    let t := after .leaseEnd (power .standby ready)
    (t.claim.held, t.perf.instrument.noticesA, t.perf.session.state) = (none, 0x100, .idle) := by decide

/-- A request to the rate in use at its execution, after one that is still to change it. -/
theorem test_setLinkRate_twice :
    let s := afterAll [.setLinkRate .a 2, .setLinkRate .a 1] ready
    let t := afterAll [.messageSent .a, .linkRateChange .a, .messageSent .a, .linkRateChange .a] s
    (s.linkA.rate, t.linkA.rate) = (.r500k, .r1M) := by decide

/-- What the line carries for a FRAME-ERROR message: the break, the mark of the header, six characters. -/
theorem test_bits :
    let bits := (Transmission.message (.frameError 0 .check) false).bits
    bits.take 25 = List.replicate 12 false ++ [true, true] ++ characterBits 161 true ∧ bits.length = 14 + 11 * 6 := by decide

/-- A step called for at PT 800 before the clock stopped stays owed when the period changes; with PT past 850 none is. -/
theorem test_writeRecord_period :
    let c := Instr.writeRecord .a 2 0 (recordContents fiveMs)
    let owed := after c (stepped 800 720 .starved)
    let past := after c (stepped 850 800 .free)
    (nextStep owed.map 800 owed.perf.expression, nextStep past.map 850 past.perf.expression) = (800, 900)
      ∧ (after .expressionStep owed).perf.expression.lastStep = 800 := by decide

/-- A shorter late limit drops the pedal and the key whose drop moment has come. -/
theorem test_writeRecord_supply :
    let s := instr (fun _ => { busy with unitsInUse := 45, damperDown := false }) ready
    let t := after (.writeRecord .a 4 0 [48, 10]) { s with perf := { s.perf with now := 10000 } }
    (t.perf.instrument.waitList, t.perf.instrument.pedalDropped, t.perf.instrument.dropped) = ([], 1, 1) := by decide

theorem test_starved_streamLines :
    let t := after (blank 1) starved31
    (answerOn .a t, t.perf.session.state, t.perf.session.rollPosition, t.perf.session.intervalEnd)
      = (some (.ok, [1, 97]), .playing, 71, some 2500) := by decide

theorem test_starved_streamClose :
    let t := after (.streamClose .a) starved31
    (t.perf.session.state, t.perf.session.streamBuffer.length, t.perf.session.streamOpen) = (.playing, 30, false) := by decide

theorem test_starved_scanImage :
    let t := after (.scanImage (paper 28 1171)) starvedSensor
    (t.perf.session.state, t.perf.session.sensorBuffer.length, t.perf.session.rollPosition, t.perf.session.intervalEnd)
      = (.playing, 0, 71, some 2500) := by decide

theorem test_linkDown_standby :
    let t := after (.linkDown .a) (followed .standby)
    (t.power.state, t.claim.held, t.linkA.up, (after (.linkDown .a) (followed .linkReset)).linkA.due)
      = (.standby, none, false, [.linkReset]) := by decide

theorem test_standby_pins :
    let s := power .standby { ready with pins := State.reset.pins }
    let t := after (.rollPresentChange true) s
    (t.power.state, t.power.wakeEnd) = (.waking, some 8000)
      ∧ (after (.monitorLevelChange true true) s).perf.instrument.monitor = .normal
      ∧ (after (.breakDetected .a) (power .waking ready)).linkA.receiver = .waitBreak := by decide

theorem test_powerOn_commit :
    let t := after .powerOn committingBoot
    (t.store.commit, t.store.profiles[(1 : Fin 4)].intact, t.store.bootChoice, t.store.active, t.store.bootFallback)
      = (none, false, 1, 0, true)
      ∧ (after .powerOn { committingBoot with pins := { ready.pins with resetLine := true } }).power.state = .held := by
  decide

theorem test_linkRateChange_next :
    let m := Message.frameError 0 .check
    let t := after (.linkRateChange .a) { ready with linkA := { upLink with due := [.rate .r2M], transmitQueue := [m] } }
    (t.linkA.rate, t.linkA.sending, t.linkA.transmitQueue) = (.r2M, some (.message m false), []) := by decide

/-- CRITICAL on the busy instrument: four cuts, a dropped strike, two discarded, a dropped pedal, and FAULT alone. -/
theorem test_monitorLevelChange_counts :
    let t := after (.monitorLevelChange false true) busyPlaying
    let i := t.perf.instrument
    (i.cut, i.dropped, i.discarded, i.pedalDropped) = (4, 1, 2, 1) ∧ (i.unitsInUse, i.waitList, i.damperDown) = (0, [], false)
      ∧ (i.noticesA, i.noticesB, t.perf.session.state) = (0x080, 0x080, .paused) := by decide

theorem test_monitorLevelChange_outputs :
    let i := (after (.monitorLevelChange false true) busyPlaying).perf.instrument
    ([10, 11, 12, 13].map fun k : Key => i.keys[k].state) = [.rest, .returning, .returning, .rest]
      ∧ (i.damper.state, i.shift.state, i.damper.assistEnd) = (.goingUp, .up, none)
      ∧ i.damper.bridge = ⟨.off, .off, 0⟩ := by decide

/-- The drop of a key in WAIT arms its pending strike; of the two entries the pedal drops first. -/
theorem test_dropMoment_several :
    let i := dropOnly busyPlaying.moment ⟨.key 10, 0, 60000⟩ busy
    (i.keys[(10 : Key)].state, i.dropped, i.waitList.length, i.keys[(10 : Key)].holders.isEmpty) = (.armed, 1, 1, true)
      ∧ (after .dropMoment busyPlaying).perf.instrument.pedalDropped = 1 := by decide

theorem test_release :
    let m := ready.moment
    let i := release 11 .roll m { busy with waitList := [] }
    (i.keys[(11 : Key)].state, i.unitsInUse, (release 12 .roll m busy).keys[(12 : Key)].state,
      decide (release 10 .linkB m busy = busy)) = (.returning, 2, .returning, true) := by decide

/-- The damper goes up and cuts the key in SHED; the waiters are granted by what it returns. -/
theorem test_pedalUp_cuts :
    let i := pedalUp .damper .roll ready.moment busy
    (i.damper.state, i.unitsInUse, i.damperDown, i.cut, i.keys[(12 : Key)].state, i.damper.assistEnd)
      = (.goingUp, 11, false, 1, .returning, some 8000) := by decide

/-- A strike NOW at a key in REST is fired at once. -/
theorem test_arrive_due :
    let s := playing 1000 ready
    (arrive s.perf.expression 39 ⟨.linkA, none, false, .fixed 255⟩ s.moment s.perf.instrument).keys[(39 : Key)].state
      = .drive := by decide

theorem test_fireRequest_waits :
    let s := armed 1000 (instr (fun _ => { busy with unitsInUse := 48, damperDown := false }) (playing 1000 ready))
    (after (.fireRequest 39) s).perf.instrument.waitList.map WaitEntry.requester = [.pedal .shift, .key 10, .key 39] := by decide

/-- The pedal is granted before the key, which is late; with fewer units the key in HOLD is shed for the pedal. -/
theorem test_pass :
    let i := pass { ready.moment with now := 2001 } busy
    let j := pass ready.moment { busy with unitsInUse := 42 }
    (i.shift.state, i.keys[(10 : Key)].state, i.unitsInUse, i.late, i.waitList, i.keys[(11 : Key)].state)
      = (.goingDown, .drive, 12, 1, [], .hold)
      ∧ (j.shift.state, j.keys[(11 : Key)].state, j.unitsInUse, j.shed, j.waitList.length) = (.goingDown, .shed, 47, 1, 1) := by
  decide

/-- A note's hole start becomes a strike, timed from the reference; a hole end is refused by a full queue, and acts at once. -/
theorem test_queueEvent :
    let s := playing 1000 ready
    let p := queueEvent s.env ⟨1000, 60⟩ ⟨.holeStart, 44, 10, 12, none, true⟩ s.perf
    let q := queueEvent s.env ⟨1000, 60⟩ ⟨.holeEnd, 44, 10, 12, none, false⟩ (fullQueue s).perf
    (p.queue.entries.map fun x => (x.action, x.sounding, x.lead, x.sequence))
        = [(.strike 39 true .expression none, 1350, 220, 0)]
      ∧ (q.queue.rollOverrun, q.instrument.earlyRelease, q.instrument.noticesA, q.queue.entries.length) = (1, 1, 1, 512) := by
  decide

theorem test_closeHoles :
    let d : Detector := { Detector.reset with holes := (Detector.reset.holes.set 44 (.opened 3 false)).set 50 (.opening false 9) }
    let out := d.closeHoles factoryMap 20
    (out.2.map fun e => (e.kind, e.track.val, e.position), out.1.pinhole) = ([(.holeEnd, 44, 20)], 1) := by decide

/-- Duty 220 conducts 43 µs of a period and duty 1 none (00_scope: a division rounds down). A change acts from the next period on, and a
stop at once. -/
theorem test_outputs :
    let o : Output := ⟨.forward 220, .off, 0⟩
    let p := o.switch 120 (.forward 40)
    (o.conducts 92, o.conducts 93, ({ o with setting := .forward 1 } : Output).conducts 100) = (true, false, false)
      ∧ (p.driveAt 149, p.driveAt 150, (o.stopAtOnce 120).driveAt 121) = (.forward 220, .forward 40, .off) := by decide

/-- Halfway down and halfway up from 800, in whole units of 0.1 ms. -/
theorem test_position :
    let down : PedalRecord := { ready.perf.instrument.damper with state := .goingDown, travel := some ⟨0, 200, 40000⟩ }
    let up : PedalRecord := { down with state := .goingUp, travel := some ⟨0, 800, 40000⟩ }
    (down.position 20099, down.position 40000, up.position 20099, up.position 40000) = (600, 1000, 400, 0) := by decide

/-- Equal velocities keep the band and duty at the key; the contributors join. -/
theorem test_merge :
    let st := (strikeAt 5 ⟨true, false, false⟩).merge { strikeAt 9 ⟨false, true, false⟩ with duty := 7, accented := true } 9
    (st.fire, st.duty, st.contributors, st.accented) = (9, 142, ⟨true, true, false⟩, true) := by decide

/-- The links keep what they hold; the strike of the roll in ARMED is lost, and the pending strike of Link A is armed. -/
theorem test_pauseInstrument :
    let held (a b : Bool) : Origins := ⟨true, a, b⟩
    let i := pauseInstrument ready.moment
      (setKey 11 { busy.keys[11] with holders := held false true } (setKey 10 { busy.keys[10] with holders := held true false } busy))
    (i.keys[(10 : Key)].state, i.keys[(10 : Key)].armed, i.keys[(10 : Key)].holders)
        = (.armed, some (strikeAt 900 ⟨false, true, false⟩), ⟨false, true, false⟩)
      ∧ (i.keys[(11 : Key)].state, i.keys[(11 : Key)].holders, i.discarded) = (.hold, ⟨false, false, true⟩, 2)
      ∧ (i.keys[(13 : Key)].state, i.damper.state, i.damper.holders.roll) = (.rest, .goingUp, false) := by decide

/-- At the highest PT the limit falls there; four keys of the roll are cut, and the strike queued is discarded with two at keys. -/
theorem test_endingLimit_cuts :
    let s := session (fun x => { x with state := .ending, endingStart := some 4294960000, pt := 4294967000, intervalEnd := none })
      (inserted (.strike 20 false .expression none) .linkA 4294967295 busyPlaying)
    let t := after .endingLimit s
    (t.perf.session.pt, t.perf.session.state, t.perf.now, t.perf.queue.entries) = (4294967295, .idle, 29500, [])
      ∧ (t.perf.instrument.cut, t.perf.instrument.discarded, t.perf.instrument.noticesA) = (4, 3, 0x028) := by decide

/-- A note hole in a stream of three lines, closed in pre-roll: its strike is queued from PT 0 at position D - 1. -/
theorem test_preRoll_events :
    let s := session (fun x => { x with streamBuffer := List.replicate 3 (1#99 <<< 44) }) (stream (inState .preparing ready))
    let t := after (.streamClose .a) s
    (t.perf.session.state, t.perf.session.rollPosition, t.perf.queue.entries.map fun x => (x.action, x.sounding))
      = (.cued, 3, [(.strike 39 false .expression none, 25)]) := by decide

/-- The line that ends a starvation confirms a note hole, and its strike is queued with that line's reference. -/
theorem test_starved_events :
    let s := session (fun x => { x with streamBuffer := (1#99 <<< 44) :: List.replicate 30 0, pt := 2000 }) starved31
    let s : State := { s with perf := { s.perf with detector := { Detector.reset with holes := Detector.reset.holes.set 44 (.opening true 68) } } }
    let t := after (.streamLines .a 1 [0]) s
    (t.perf.session.state, t.perf.queue.entries.map fun x => (x.action, x.sounding))
      = (.playing, [(.strike 39 false .expression none, 3550)]) := by decide

/-- The third OPEN line of a sensor roll confirms the hole; a window of two OPEN samples reads OPEN and counts as noise. -/
theorem test_sensorLine :
    let c := factoryTracker.centres[(44 : Track)]
    let d : Detector := { Detector.reset with holes := Detector.reset.holes.set 44 (.opening true 8) }
    let line := paper 28 1171 ||| (3#1200 <<< c)
    let out := d.sensorLine factoryMap 10 line
    (windowCount factoryTracker 0 line 44, out.1.noise[(44 : Track)], out.1.badLine) = (2, 1, 0)
      ∧ (out.2.map fun e => (e.kind, e.track.val, e.position, e.reading)) = [(.holeStart, 44, 8, 10)] := by decide

/-! ### The hypotheses of these clauses are met -/

/-- One command due, and two. -/
theorem witness_StepTakesFrontOrIdles_due :
    let s := driveEndsAt 39 0 ready
    (s.pending = [] ∧ dueCommands s = [.driveEnd 39]) ∧ dueCommands (driveEndsAt 40 0 s) = [.driveEnd 39, .driveEnd 40] := by decide

theorem witness_YieldOutcomes_standby :
    let s := took .b (.standby .b) unclaimed
    Takes s .b (.standby .b) ∧ s.otherHolds .b = false ∧ s.quiet = true ∧ s.store.commit = none := by
  unfold Takes; decide

theorem witness_LeaseEndLapses_standby :
    (power .standby ready).power.state ≠ .held ∧ (power .standby ready).claim.held = some ⟨.a, 1500000, false⟩ := by decide

/-- The line that makes 32, and the close of a stream with a line held, with no entry due. -/
theorem witness_StreamLinesAndClose_starved :
    let c := Instr.streamLines .a 1 [0]
    let s := took .a c starved31
    let t := took .a (.streamClose .a) starved31
    (Takes s .a c ∧ s.holds .a = true ∧ s.perf.session.takesStream = true ∧ s.perf.session.state = .starved
        ∧ (s.perf.session.streamBuffer ++ ([0].map trackLineOf).take (128 - s.perf.session.streamBuffer.length)).length = 32
        ∧ noneDue s.perf)
      ∧ Takes t .a (.streamClose .a) ∧ t.perf.session.streamBuffer = 0 :: List.replicate 30 0 ∧ noneDue t.perf := by
  unfold Takes noneDue; decide

/-- Events of each kind of track, a queue with one place and a full one. -/
theorem witness_EntryInsertion_events :
    (trackAction ⟨.holeStart, 92, 0, 0, none, false⟩ = some (.strike 87 false .expression none)
        ∧ (87 : Key).val + 1 = (92 : Track).val - 4)
      ∧ trackAction ⟨.holeStart, 3, 0, 0, none, false⟩ = none ∧ trackAction ⟨.slotEnd, 98, 0, 0, none, false⟩ = none
      ∧ ready.perf.queue.entries.length < 512 ∧ 512 ≤ (fullQueue ready).perf.queue.entries.length := by decide

/-- A period that changes with a step called for at PT, with none, and at the instant of an arrival; a supply record with entries whose
drop moment comes, and with none. -/
theorem witness_MapWrites_effects :
    let c := Instr.writeRecord .a 2 0 (recordContents fiveMs)
    let s := took .a c (stepped 800 720 .starved)
    let supply : SupplyRegulation := ⟨48, 10⟩
    let now : State := session (fun x => { x with ptSince := 30 }) (stepped 800 720 .free)
    (fiveMs.valid = true ∧ recordSelector fiveMs = 2 ∧ Takes s .a c ∧ s.perf.session.state.clockRuns = false
        ∧ s.perf.expression.lastStep < s.perf.session.pt
        ∧ s.perf.session.pt % (s.map.expression.stepPeriod * 10) = 0)
      ∧ (stepped 850 800 .starved).perf.session.pt % 80 ≠ 0
      ∧ (now.perf.session.state.clockRuns = true ∧ now.perf.session.ptSince = now.perf.now)
      ∧ (RecordWrite.valid (.supply supply) = true
        ∧ (busy.waitList.filter fun e => decide (e.requestMoment + supply.lateLimit * 1000 ≤ 10000)).length = 2
        ∧ (busy.waitList.filter fun e => decide (e.requestMoment + supply.lateLimit * 1000 ≤ 9999)) = []) := by
  unfold Takes; decide

/-- SET-LINK-RATE to the rate in use, and to another. -/
theorem witness_ReadsAndClear_rate :
    let s := took .a (.setLinkRate .a 1) ready
    Takes s .a (.setLinkRate .a 1) ∧ (s.link .a).rate = .r500k ∧ Rate.r250k ≠ (s.link .a).rate := by
  unfold Takes; decide

theorem witness_StandbyAndWake_pins :
    let s := power .standby { ready with pins := State.reset.pins }
    s.pins.rollPresent = false ∧ s.power.state = .standby ∧ s.running = false := by decide

theorem witness_Resets_commit :
    committingBoot.store.commit = some ⟨1, factoryMap, true, 0, false⟩ ∧ committingBoot.store.bootChoice = 1
      ∧ ((power .held { ready with pins := { ready.pins with resetLine := true } }).power.state = .held
        ∧ ready.store.commit = none) := by decide

theorem witness_BreaksOpen_waking :
    let s := power .waking ready
    (s.link .a).up = true ∧ (s.link .a).breakArmed = true ∧ s.power.state = .waking := by decide

/-- A link that goes DOWN with a STANDBY to follow: the part then meets the conditions of standby, and in FREE it does not. -/
theorem witness_LinkDownUp_follows :
    let s := followed .standby
    AfterAction.standby ∈ (s.link .a).due ++ (s.link .a).slots.filterMap Slot.after ∧ s.power.state = .running
      ∧ s.quiet = true ∧ s.store.commit = none ∧ (inState .free s).quiet = false := by decide

theorem witness_MessagesGo_rate :
    let r : LinkRecord := { upLink with due := [.rate .r2M], transmitQueue := [.frameError 0 .check] }
    r.due = [.rate .r2M] ∧ r.sending = none ∧ r.transmitQueue = .frameError 0 .check :: [] := by decide

theorem witness_PinChanges_critical :
    busyPlaying.running = true ∧ busyPlaying.perf.instrument.monitor ≠ .critical
      ∧ busyPlaying.perf.session.state.inPlay = true := by decide

/-- STARVED with an image awaited; standby and reset with none. -/
theorem witness_ScanImages_starved :
    (starvedSensor.running = true ∧ starvedSensor.perf.session.state = .starved
        ∧ starvedSensor.perf.session.source = .sensor ∧ starvedSensor.perf.session.stepTimer.isSome = true
        ∧ starvedSensor.perf.session.sensorBuffer = [] ∧ noneDue starvedSensor.perf)
      ∧ ((power .waking ready).power.state = .waking ∧ (power .waking ready).perf.session.stepTimer = none)
      ∧ (power .held ready).power.state = .held := by
  unfold noneDue; decide

/-- A drained stream with a hole of the roll open. -/
theorem witness_PlayingLines_drained :
    let s := session (fun x => { x with streamOpen := false }) (inserted (.release 59) .roll 90000 (playing 100 ready))
    let p := advanceTo 2500 s.perf
    s.perf.session.streamBuffer = [] ∧ s.perf.session.streamOpen = false ∧ p.session.pt = 125
      ∧ (∀ x ∈ p.queue.entries, p.session.pt < x.launch) ∧ rollIsDone p = false := by decide

/-- A step that is owed at PT, and a clock that stands short of the next step. -/
theorem witness_HalvesShadeAndStep_owed :
    let s := stepped 800 800 .starved
    let x := { s.perf.expression with owed := true }
    nextStep s.map s.perf.session.pt x = s.perf.session.pt
      ∧ s.perf.session.pt < nextStep s.map s.perf.session.pt s.perf.expression
      ∧ s.perf.session.state.clockRuns = false := by decide

/-- A strike NOW at a key in REST; fire times 50 and 51 units apart; a key in HOLD and in SHED. -/
theorem witness_StrikesFormAndArrive_due :
    let s := playing 1000 ready
    (newStrike s.moment s.perf.expression 39 ⟨.linkA, none, false, .fixed 255⟩ s.perf.instrument).fire ≤ s.moment.pt
      ∧ fireTimesClose 1000 1050 = true ∧ fireTimesClose 1000 1051 = false
      ∧ busy.keys[(11 : Key)].state = .hold ∧ busy.keys[(12 : Key)].state = .shed
      ∧ busy.keys[(12 : Key)].returnEnd.isSome = true ∧ busy.keys[(10 : Key)].state = .wait
      ∧ busy.keys[(10 : Key)].pending.isSome = true := by decide

theorem witness_KeysFire_waits :
    let s := armed 1000 (instr (fun _ => busy) (playing 1000 ready))
    s.running = true ∧ s.perf.instrument.keys[(39 : Key)].state = .armed
      ∧ s.perf.instrument.keys[(39 : Key)].armed = some (strikeAt 1000 ⟨true, false, false⟩)
      ∧ s.perf.instrument.waitList ≠ [] ∧ 1000 ≤ s.perf.session.pt := by decide

/-- Two entries with one drop moment; a pending strike whose time is to come, and one whose time has come; releases in HOLD and SHED. -/
theorem witness_KeysReturn_several :
    busyPlaying.perf.instrument.waitList = [] ++ ⟨.pedal .shift, 0, 60000⟩ :: [⟨.key 10, 0, 60000⟩]
      ∧ busyPlaying.perf.now ≤ 60000 ∧ busyPlaying.moment.pt < 900 ∧ 900 ≤ (playing 900 ready).moment.pt
      ∧ busy.keys[(10 : Key)].pending = some (strikeAt 900 ⟨false, true, false⟩)
      ∧ busy.keys[(11 : Key)].holders.has .roll = true ∧ (busy.keys[(11 : Key)].holders.erase .roll).isEmpty = true
      ∧ busy.keys[(12 : Key)].holders.has .roll = true ∧ busy.keys[(11 : Key)].holders.has .linkA = false := by decide

/-- Up from DOWN and from GOING-DOWN, and from UP while waiting. -/
theorem witness_PedalsMoveAndTravel_up :
    let going := (after (.livePedal .b 0 0 0) ready).perf.instrument.damper
    (busy.damper.state = .down ∧ busy.damper.requestMoment = none ∧ (busy.damper.holders.erase .roll).isEmpty = true)
      ∧ (going.state = .goingDown ∧ going.requestMoment = none)
      ∧ (busy.shift.requestMoment.isSome = true ∧ busy.shift.holders.has .roll = true) := by decide

/-- Keys in ARMED and WAIT that lose their strike, with and without a pending one; keys in HOLD and SHED and a pedal in DOWN that the roll
alone holds; a pedal that waits; and one that the roll does not hold. -/
theorem witness_PausePauses_parts :
    (withoutRoll busy.keys[(13 : Key)].armed = none ∧ busy.keys[(13 : Key)].state = .armed
        ∧ busy.keys[(13 : Key)].pending = none ∧ withoutRoll busy.keys[(10 : Key)].armed = none
        ∧ busy.keys[(10 : Key)].state = .wait ∧ busy.keys[(10 : Key)].pending = some (strikeAt 900 ⟨false, true, false⟩)
        ∧ ready.moment.pt < 900 ∧ 900 ≤ (playing 900 ready).moment.pt)
      ∧ (busy.keys[(11 : Key)].state = .hold ∧ busy.keys[(12 : Key)].state = .shed
        ∧ busy.keys[(11 : Key)].holders = ⟨true, false, false⟩ ∧ busy.keys[(12 : Key)].holders = ⟨true, false, false⟩)
      ∧ (busy.damper.holders = ⟨true, false, false⟩ ∧ busy.damper.state = .down ∧ busy.damper.requestMoment = none
        ∧ busy.shift.requestMoment.isSome = true ∧ ready.perf.instrument.damper.holders.has .roll = false) := by decide

/-- An ending limit beyond the highest PT, and keys that the roll holds at it. -/
theorem witness_RollEnds_cuts :
    let s := session (fun x => { x with state := .ending, endingStart := some 4294960000, pt := 4294967000 }) busyPlaying
    s.running = true ∧ s.perf.session.state = .ending ∧ s.perf.session.endingStart = some 4294960000
      ∧ s.perf.session.pt ≤ 4294967295 ∧ s.perf.session.ptFraction < 100
      ∧ (allKeys.filter fun k => s.perf.instrument.keys[k].holders.roll) = [10, 11, 12, 13] := by decide

/-- The ways that a travel stands, and an output within a period and past it. -/
theorem witness_PedalsMoveAndTravel_position :
    let down : PedalRecord := { ready.perf.instrument.damper with state := .goingDown, travel := some ⟨0, 200, 40000⟩ }
    let up : PedalRecord := { down with state := .goingUp }
    (down.state = .goingDown ∧ down.travel = some ⟨0, 200, 40000⟩ ∧ up.state = .goingUp ∧ up.travel = some ⟨0, 200, 40000⟩)
      ∧ ((149 : Nat) / 50 = 120 / 50 ∧ (120 : Nat) / 50 < 150 / 50)
      ∧ (⟨.forward 220, .off, 0⟩ : Output).driveAt 92 = .forward 220 := by decide

/-- Units over the capacity with the damper down and a key in HOLD; a head that fits, a pedal and a key; one that does not fit. -/
theorem witness_GrantPass_moves :
    let cap := effectiveCapacity busy.monitor ready.map.supply.capacity
    (cap < ({ busy with unitsInUse := 49 } : Instrument).unitsInUse ∧ busy.damperDown = true
        ∧ busy.keys[(11 : Key)].state = .hold)
      ∧ busy.unitsInUse + 6 ≤ cap ∧ busy.unitsInUse + 3 ≤ cap
      ∧ busy.waitList = ⟨.pedal .shift, 0, 60000⟩ :: [⟨.key 10, 0, 60000⟩] ∧ busy.keys[(10 : Key)].armed.isSome = true
      ∧ cap < 43 + Requester.cost (.pedal .shift) ∧ (0 : Nat) + 2000 < 2001 := by decide

end Sys2Proof.Tests
end

section
/-! PROOFS. What the track detector reads (O54): the edges in samples of the line, edge tracking, a sensor line with its windows read or
lost, and the hole detector of a track by the class of the track. -/

namespace Sys2Proof.Machine

/-! ### The edges (R29) -/

/-- Eight PAPER samples in a row, within the line, from sample `i` on. -/
def PaperFrom (line : SensorLine) (i : Nat) : Prop := i + 8 ≤ 1200 ∧ ∀ j, j < 8 → line.getLsbD (i + j) = false

theorem paperFrom_iff (line : SensorLine) (i : Nat) : PaperFrom line i ↔ i < 1193 ∧ paperRunAt line i = true := by
  rw [paperRunAt_iff]
  exact and_congr_left fun _ => by omega

theorem not_paperFrom_iff (line : SensorLine) (i : Nat) :
    ¬ PaperFrom line i ↔ (i < 1193 → paperRunAt line i = false) := by
  rw [paperFrom_iff, not_and, Bool.not_eq_true]

theorem leftEdge_iff_firstPaper (line : SensorLine) (e : Nat) :
    leftEdge line = some e ↔ PaperFrom line e ∧ ∀ i, i < e → ¬ PaperFrom line i := by
  rw [leftEdge_iff, paperFrom_iff]
  simp only [not_paperFrom_iff]

theorem rightEdge_iff_lastPaper (line : SensorLine) (e : Nat) :
    rightEdge line = some e ↔ 7 ≤ e ∧ PaperFrom line (e - 7) ∧ ∀ i, e < i + 7 → ¬ PaperFrom line i := by
  rw [rightEdge_iff, paperFrom_iff]
  simp only [not_paperFrom_iff]

/-! ### Edge tracking (R30, R31, R33) -/

theorem goodOffset_range {t : TrackerRegulation} {line : SensorLine} {measured : Int}
    (h : goodOffset t line = some measured) : -40 ≤ measured ∧ measured ≤ 40 := by
  obtain ⟨_, _, _, _, _, _, _, range⟩ := (goodOffset_iff t line measured).1 h
  exact range

theorem trackEdges_of_good {t : TrackerRegulation} {line : SensorLine} {measured : Int}
    (h : goodOffset t line = some measured) (d : Detector) :
    d.trackEdges t line = { d with
      appliedOffset := moveToward d.appliedOffset measured
      badRun := 0
      goodRun := min 32 (d.goodRun + 1) } := by
  unfold Detector.trackEdges
  rw [h]

theorem trackEdges_of_bad {t : TrackerRegulation} {line : SensorLine} (h : goodOffset t line = none) (d : Detector) :
    d.trackEdges t line = { d with badRun := d.badRun + 1, goodRun := 0 } := by
  unfold Detector.trackEdges
  rw [h]

/-! ### A sensor line, read or lost (R33, R35) -/

/-- The windows are read at the offset that edge tracking leaves, by the hole detectors and noise counts from before the line. -/
theorem sensorLine_readsLine (map : RegulationMap) (reading : Nat) (line : SensorLine) (d : Detector) :
    (d.trackEdges map.tracker line).badRun < 24 →
    let d' := d.trackEdges map.tracker line
    let count (k : Track) : Nat := windowCount map.tracker d'.appliedOffset line k
    let out := d.sensorLine map reading line
    (∀ k : Track, out.1.noise[k] = if count k = 1 ∨ count k = 2 then min 65535 (d.noise[k] + 1) else d.noise[k])
      ∧ readsLine map.expression.splitKey (fun k => holeStep k reading (decide (2 ≤ count k)) d.holes[k])
        { d' with
          noise := out.1.noise
          badLine := if (goodOffset map.tracker line).isSome then d.badLine else d.badLine + 1 } out := by
  obtain ⟨holes, noise, _, _⟩ := trackEdges_keeps map.tracker line d
  intro h
  have read := readWindows_readsLine map reading line { d.trackEdges map.tracker line with
    badLine := if (goodOffset map.tracker line).isSome then d.badLine else d.badLine + 1 }
  rw [← sensorLine_reads map reading line d _ rfl h] at read
  dsimp only at read ⊢
  rw [holes, noise] at read
  rwa [holes]

/-- A line that brings the bad-line run to 24 is a bad one: it counts BAD-LINE, and no window of it is read. -/
theorem sensorLine_of_lost (map : RegulationMap) (reading : Nat) (line : SensorLine) (d : Detector)
    (h : 24 ≤ (d.trackEdges map.tracker line).badRun) :
    d.sensorLine map reading line = ({ d.trackEdges map.tracker line with badLine := d.badLine + 1 }, []) := by
  obtain ⟨_, _, badLine, _⟩ := trackEdges_keeps map.tracker line d
  have bad : 0 < (d.trackEdges map.tracker line).badRun := by omega
  have counted : countIf (decide (0 < (d.trackEdges map.tracker line).badRun)) = 1 := if_pos (decide_eq_true bad)
  unfold Detector.sensorLine
  dsimp only
  rw [if_pos h, badLine, counted]

/-! ### The classes of the tracks (R40) -/

theorem trackClass_lengthClassed_iff (k : Track) :
    trackClass k = .lengthClassed ↔ k.val = 2 ∨ k.val = 95 ∨ k.val = 98 := by
  unfold trackClass
  split
  · next slot => exact iff_of_true rfl slot
  · next noSlot =>
    split
    · exact iff_of_false (by decide) noSlot
    · exact iff_of_false (by decide) noSlot

theorem trackClass_accent_iff (k : Track) : trackClass k = .accent ↔ k.val = 3 ∨ k.val = 94 := by
  unfold trackClass
  split
  · next slot => exact iff_of_false (by decide) (by omega)
  · split
    · next accent => exact iff_of_true rfl accent
    · next noAccent => exact iff_of_false (by decide) noAccent

theorem trackClass_ordinary_iff (k : Track) :
    trackClass k = .ordinary ↔ trackClass k ≠ .lengthClassed ∧ trackClass k ≠ .accent := by
  cases trackClass k <;> decide

/-! ### The confirmation of a hole (R38, R41) -/

theorem confirmStep_hole (k : Track) (start reading : Nat) :
    (confirmStep k start reading).hole = .opened start false := by
  unfold confirmStep
  cases trackClass k <;> rfl

theorem confirmStep_event_of_ordinary {k : Track} (h : trackClass k = .ordinary) (start reading : Nat) :
    (confirmStep k start reading).event = some ⟨.holeStart, k, start, reading, none, false⟩ := by
  simp only [confirmStep, h]

theorem confirmStep_event_of_not_ordinary {k : Track} (h : trackClass k ≠ .ordinary) (start reading : Nat) :
    (confirmStep k start reading).event = none := by
  unfold confirmStep
  cases hc : trackClass k with
  | ordinary => exact absurd hc h
  | lengthClassed => rfl
  | accent => rfl

/-! ### A confirmed hole on an OPEN line (R37, R41) -/

theorem openStep_of_not_lengthClassed {k : Track} (h : trackClass k ≠ .lengthClassed) (start reading : Nat) (given : Bool) :
    openStep k start reading given = quietStep (.opened start given) := by
  unfold openStep
  cases hc : trackClass k with
  | ordinary => rfl
  | lengthClassed => exact absurd hc h
  | accent => rfl

/-- SLOT-START is given once, and not before the hole has 14 lines. -/
theorem openStep_of_given_or_short {start reading : Nat} {given : Bool} (h : given = true ∨ reading + 1 < start + 14)
    (k : Track) : openStep k start reading given = quietStep (.opened start given) := by
  have noSlot : ¬ (!given && decide (start + 14 ≤ reading + 1)) = true := by
    rw [Bool.and_eq_true, Bool.not_eq_true', decide_eq_true_iff]
    rintro ⟨rfl, long⟩
    exact h.elim Bool.noConfusion (by omega)
  simp only [openStep, if_neg noSlot]
  cases trackClass k <;> rfl

theorem openStep_of_slotStart {k : Track} (h : trackClass k = .lengthClassed) {start reading : Nat}
    (long : start + 14 ≤ reading + 1) :
    openStep k start reading false
      = ⟨.opened start true, some ⟨.slotStart, k, start, reading, none, false⟩, false, false⟩ := by
  have slotDue : (!false && decide (start + 14 ≤ reading + 1)) = true := decide_eq_true long
  unfold openStep
  rw [h]
  exact if_pos slotDue

/-! ### The end of a hole (R39, R42) -/

theorem endStep_closes (k : Track) (start finish reading : Nat) :
    (endStep k start finish reading).hole = .closed ∧ (endStep k start finish reading).pinhole = false := by
  unfold endStep
  cases trackClass k with
  | ordinary => exact ⟨rfl, rfl⟩
  | accent => exact ⟨rfl, rfl⟩
  | lengthClassed =>
    dsimp only
    split
    · exact ⟨rfl, rfl⟩
    · split
      · exact ⟨rfl, rfl⟩
      · exact ⟨rfl, rfl⟩

theorem endStep_of_accent {k : Track} (h : trackClass k = .accent) (start finish reading : Nat) :
    (endStep k start finish reading).event = none ∧ (endStep k start finish reading).ambiguous = false := by
  unfold endStep
  rw [h]
  exact ⟨rfl, rfl⟩

theorem endStep_of_ordinary {k : Track} (h : trackClass k = .ordinary) (start finish reading : Nat) :
    (endStep k start finish reading).event = some ⟨.holeEnd, k, finish, reading, some (finish - start), false⟩
      ∧ (endStep k start finish reading).ambiguous = false := by
  unfold endStep
  rw [h]
  exact ⟨rfl, rfl⟩

/-- A hole of a length-classed track is by its length a punch, ambiguous, or a slot. -/
theorem endStep_of_lengthClassed {k : Track} (h : trackClass k = .lengthClassed) (start finish reading : Nat) :
    let step := endStep k start finish reading
    let length := finish - start
    (length ≤ 10 → step.event = some ⟨.punch, k, start, reading, some length, false⟩ ∧ step.ambiguous = false)
      ∧ (11 ≤ length → length ≤ 13 → step.event = none ∧ step.ambiguous = true)
      ∧ (14 ≤ length →
          step.event = some ⟨.slotEnd, k, finish, reading, some length, false⟩ ∧ step.ambiguous = false) := by
  simp only [endStep, h]
  refine ⟨fun punch => ?_, fun above below => ?_, fun slot => ?_⟩
  · rw [if_pos punch]
    exact ⟨rfl, rfl⟩
  · rw [if_neg (by omega), if_pos below]
    exact ⟨rfl, rfl⟩
  · rw [if_neg (by omega), if_neg (by omega)]
    exact ⟨rfl, rfl⟩

/-! ### The statement (O54) -/

/-- Settles O54, from the rules of the edges, edge tracking, the windows and the hole detector above. -/
theorem detectorReads : Obligations.DetectorReads := by
  refine ⟨fun map line reading d => ?_, fun k reading start paper second given => ?_, fun map reading d => ?_⟩
  · intro d'
    refine ⟨fun _ h => trackEdges_of_good h d, fun h => trackEdges_of_bad h d, fun _ h => goodOffset_range h,
      ⟨leftEdge_iff_firstPaper line, rightEdge_iff_lastPaper line, goodOffset_iff map.tracker line⟩,
      fun offset k => windowCount_eq map.tracker offset line k, sensorLine_readsLine map reading line d, fun h => ?_⟩
    rw [sensorLine_of_lost map reading line d h]
    exact ⟨rfl, rfl⟩
  · intro line lengthClassed accent length
    have slot : lengthClassed ↔ trackClass k = .lengthClassed := (trackClass_lengthClassed_iff k).symm
    have accents : accent ↔ trackClass k = .accent := (trackClass_accent_iff k).symm
    have ordinary : trackClass k = .ordinary ↔ ¬ lengthClassed ∧ ¬ accent := by
      rw [slot, accents, trackClass_ordinary_iff]
    have notOrdinary : lengthClassed ∨ accent → trackClass k ≠ .ordinary := by
      rintro (h | h) ho
      · exact (ordinary.1 ho).1 h
      · exact (ordinary.1 ho).2 h
    refine ⟨rfl, rfl, by cases second <;> rfl, rfl, confirmStep_hole k start reading,
      fun h => confirmStep_event_of_not_ordinary (notOrdinary h) start reading,
      fun hs ha => confirmStep_event_of_ordinary (ordinary.2 ⟨hs, ha⟩) start reading, rfl, fun hs => ?_, fun hs => ?_,
      ?_, rfl, rfl, rfl, rfl⟩
    · have stays := openStep_of_not_lengthClassed (mt slot.2 hs) start reading given
      exact ⟨stays, stays⟩
    · refine ⟨rfl, fun h => openStep_of_given_or_short h k, ?_⟩
      rintro rfl long
      exact openStep_of_slotStart (slot.1 hs) long
    · obtain ⟨closes, noPinhole⟩ := endStep_closes k start paper reading
      exact ⟨closes, noPinhole, fun ha => endStep_of_accent (accents.1 ha) start paper reading,
        fun hs ha => endStep_of_ordinary (ordinary.2 ⟨hs, ha⟩) start paper reading,
        fun hs => endStep_of_lengthClassed (slot.1 hs) start paper reading⟩
  · exact ⟨fun line => takeSteps_readsLine _ (fun k hole => holeStep k reading (line.getLsbD k.val) hole) d,
      takeSteps_readsLine _ (fun k hole => closeStep k reading hole) d,
      fun _ _ => rfl, fun _ _ _ => rfl, rfl, fun _ _ => rfl⟩

end Sys2Proof.Machine
end

section
/-! PROOFS. How the entries of the action queue are rescaled (O19), and how an entry comes into it, from the roll (O23) and
from a link (O24). -/

namespace Sys2Proof.Machine

/-! ### The rescale (R64, R65) -/

theorem rescaleEntry_of_link {x : Entry} (h : x.origin ≠ .roll) (pt new old : Nat) : rescaleEntry pt new old x = x :=
  if_neg h

/-- The sounding time that the rescale gives an entry of the roll (R64). -/
def rescaledSounding (pt new old : Nat) (x : Entry) : Nat :=
  if pt < x.sounding then min ptMax (pt + (x.sounding - pt) * new / old) else x.sounding

theorem rescaleEntry_of_roll {x : Entry} (h : x.origin = .roll) (pt new old : Nat) :
    rescaleEntry pt new old x
      = { x with
          sounding := rescaledSounding pt new old x
          launch := rescaledSounding pt new old x - x.lead } :=
  if_pos h

/-- The rescale changes an entry in its times alone. -/
theorem rescaleEntry_keeps (pt new old : Nat) (x : Entry) :
    let y := rescaleEntry pt new old x
    y.action = x.action ∧ y.origin = x.origin ∧ y.lead = x.lead ∧ y.sequence = x.sequence
      ∧ y.rollPosition = x.rollPosition := by
  by_cases h : x.origin = .roll
  · rw [rescaleEntry_of_roll h]
    exact ⟨rfl, rfl, rfl, rfl, rfl⟩
  · rw [rescaleEntry_of_link h]
    exact ⟨rfl, rfl, rfl, rfl, rfl⟩

theorem rescale_perm (pt new old : Nat) (q : Queue) :
    (q.rescale pt new old).entries.Perm (q.entries.map (rescaleEntry pt new old)) :=
  sortEntries_perm _

theorem mem_rescale {x : Entry} {q : Queue} (h : x ∈ q.entries) (pt new old : Nat) :
    rescaleEntry pt new old x ∈ (q.rescale pt new old).entries :=
  (rescale_perm pt new old q).mem_iff.2 (List.mem_map_of_mem h)

/-- Settles O19: each entry stays in the queue as its own rescaled entry, and the queue is sorted. -/
theorem rescaleTimes : Obligations.RescaleTimes := by
  intro pt new old q
  refine ⟨rescale_perm pt new old q, sortEntries_inOrder _, rfl, rfl, fun x queued => ?_⟩
  obtain ⟨action, origin, lead, sequence, position⟩ := rescaleEntry_keeps pt new old x
  refine ⟨_, mem_rescale queued pt new old, action, origin, lead, sequence, position,
    fun link => rescaleEntry_of_link link pt new old, fun roll => ?_⟩
  rw [rescaleEntry_of_roll roll]
  exact ⟨rfl, fun reached => if_neg (Nat.not_lt.2 reached), fun ahead => if_pos ahead⟩

/-! ### An entry comes into the queue (R51, R56, R68) -/

/-- The instrument once an inserted entry has been counted: a STRIKE counts ACCEPTED (R68). -/
def countAccepted (x : Entry) (i : Instrument) : Instrument :=
  { i with accepted := i.accepted + countIf x.action.isStrike }

theorem insertEntry_due {x : Entry} {p : Performance} (runs : p.session.state.clockRuns = true)
    (due : x.launch ≤ p.session.pt) (e : Env) :
    insertEntry e x p
      = handOver e x { p with queue := p.queue.passThrough, instrument := countAccepted x p.instrument } :=
  if_pos (by rw [Bool.and_eq_true]; exact ⟨runs, decide_eq_true due⟩)

theorem insertEntry_stays {x : Entry} {p : Performance}
    (h : p.session.state.clockRuns = false ∨ p.session.pt < x.launch) (e : Env) :
    insertEntry e x p = { p with queue := p.queue.insert x, instrument := countAccepted x p.instrument } := by
  refine if_neg ?_
  rw [Bool.and_eq_true, decide_eq_true_iff]
  rintro ⟨runs, due⟩
  rcases h with stands | early
  · exact Bool.noConfusion (runs.symm.trans stands)
  · exact absurd due (Nat.not_le.2 early)

/-- An entry inserted last takes its place by sounding time alone (R56). -/
theorem insert_place {q : Queue} {x : Entry} (sorted : inOrder q.entries) (last : ∀ y ∈ q.entries, y.order < x.order) :
    ∃ before after, q.entries = before ++ after ∧ (q.insert x).entries = before ++ x :: after
      ∧ (∀ y ∈ before, y.sounding ≤ x.sounding) ∧ ∀ y ∈ after, x.sounding < y.sounding := by
  obtain ⟨before, after, split, placed, earlier, later⟩ := placeEntry_split (x := x) sorted
  refine ⟨before, after, split, placed, fun y hy => ?_, fun y hy => ?_⟩
  · have h := earlier y hy
    simp only [Entry.before, Bool.or_eq_true, Bool.and_eq_true, decide_eq_true_eq] at h
    omega
  · have h := later y hy
    have older := last y (split ▸ List.mem_append_right before hy)
    simp only [Entry.before, Bool.or_eq_false_iff, Bool.and_eq_false_iff, decide_eq_false_iff_not] at h
    omega

/-! ### The table of hole events (R54) -/

theorem noteKey_eq {t : Track} {k : Key} (h : k.val + 1 = t.val - 4) : noteKey t = k := by
  apply Fin.ext
  show (t.val - 5) % 88 = k.val
  omega

theorem trackAction_of_note {ev : HoleEvent} (low : 5 ≤ ev.track.val) (high : ev.track.val ≤ 92) {k : Key}
    (h : k.val + 1 = ev.track.val - 4) :
    (ev.kind = .holeStart → trackAction ev = some (.strike k ev.accented .expression none))
      ∧ (ev.kind = .holeEnd → trackAction ev = some (.release k)) := by
  have note : isNote ev.track = true := by simp [isNote, low, high]
  constructor <;> intro kind <;> simp [trackAction, note, kind, noteKey_eq h]


/-- The rows of the table of R54 beside the notes: each end of a hole by the track and the kind of the event. -/
theorem trackAction_of_control (ev : HoleEvent) :
    let t := ev.track.val
    let half : HalfName := if t < 50 then .bass else .treble
    let made (kind : EventKind) (a : Option Action) : Prop := ev.kind = kind → trackAction ev = a
    (t = 0 ∨ t = 97 → made .holeStart (some (.expression .slowOn half)) ∧ made .holeEnd (some (.expression .slowOff half)))
      ∧ (t = 1 ∨ t = 96 → made .holeStart (some (.expression .fastOn half))
          ∧ made .holeEnd (some (.expression .fastOff half)))
      ∧ (t = 2 ∨ t = 95 → made .punch (some (.expression .hookToggle half))
          ∧ made .slotStart (some (.expression .freezeOn half)) ∧ made .slotEnd (some (.expression .freezeOff half)))
      ∧ (t = 4 → made .holeStart (some (.pedalDown .shift)) ∧ made .holeEnd (some (.pedalUp .shift)))
      ∧ (t = 93 → made .holeStart (some (.pedalDown .damper)) ∧ made .holeEnd (some (.pedalUp .damper)))
      ∧ (t = 98 → made .punch (some .sectionMark) ∧ made .slotStart (some .endMark) ∧ made .slotEnd none)
      ∧ (t = 3 ∨ t = 94 → trackAction ev = none) := by
  dsimp only
  refine ⟨?slow, ?fast, ?hook, ?shift, ?damper, ?sections, ?accents⟩
  case slow => rintro (h | h) <;> constructor <;> intro kind <;> simp [trackAction, isNote, h, kind]
  case fast => rintro (h | h) <;> constructor <;> intro kind <;> simp [trackAction, isNote, h, kind]
  case hook => rintro (h | h) <;> refine ⟨?_, ?_, ?_⟩ <;> intro kind <;> simp [trackAction, isNote, h, kind]
  case shift => intro h; constructor <;> intro kind <;> simp [trackAction, isNote, h, kind]
  case damper => intro h; constructor <;> intro kind <;> simp [trackAction, isNote, h, kind]
  case sections => intro h; refine ⟨?_, ?_, ?_⟩ <;> intro kind <;> simp [trackAction, isNote, h, kind]
  case accents => rintro (h | h) <;> simp [trackAction, isNote, h]

/-! ### A hole event comes into the queue, or is refused (R52, R53, R56, R61 to R63) -/

theorem queueEvent_of_none {ev : HoleEvent} (h : trackAction ev = none) (e : Env) (ref : Reference) (p : Performance) :
    queueEvent e ref ev p = p := by
  unfold queueEvent
  rw [h]

theorem queueEvent_of_room {ev : HoleEvent} {a : Action} (h : trackAction ev = some a) {p : Performance}
    (room : p.queue.entries.length < 512) (e : Env) (ref : Reference) :
    queueEvent e ref ev p
      = insertEntry e (newEntry e.map a .roll
          (soundingTime ref p.session.tempo e.map.tracker.soundingDistance ev.position) (some ev.position) p.queue) p := by
  unfold queueEvent
  rw [h]
  exact if_pos (decide_eq_true room)

theorem queueEvent_of_full {ev : HoleEvent} {a : Action} (h : trackAction ev = some a) {p : Performance}
    (full : 512 ≤ p.queue.entries.length) (e : Env) (ref : Reference) :
    queueEvent e ref ev p = refuseRoll e a p := by
  have noRoom : p.queue.hasRoom 1 = false := decide_eq_false (Nat.not_le.2 (Nat.lt_succ_of_le full))
  simp only [queueEvent, h, noRoom, Bool.false_eq_true, if_false]

/-- An action that is no strike, no release and no pedal-up is lost where it is refused (R63). -/
theorem refusedEffect_of_lost {a : Action} (strike : a.isStrike = false) (release : ∀ k, a ≠ .release k)
    (up : ∀ d, a ≠ .pedalUp d) (e : Env) (p : Performance) : refusedEffect e a p = p := by
  cases a with
  | strike => exact Bool.noConfusion strike
  | release k => exact absurd rfl (release k)
  | pedalUp d => exact absurd rfl (up d)
  | pedalDown | expression | sectionMark | endMark => rfl

/-- Settles O23: the insertion of an entry, the entry made now, the table of R54, and the hole event with and without a place. -/
theorem entryInsertion : Obligations.EntryInsertion := by
  refine ⟨fun e x p => ⟨fun runs due => insertEntry_due runs due e, fun stays => ?_⟩,
    fun map a o sounding position q => ?_, fun ev => ⟨fun k h high low => trackAction_of_note low high h,
      trackAction_of_control ev⟩, fun e ref ev p => ⟨fun h => queueEvent_of_none h e ref p, fun a made => ⟨fun room =>
      queueEvent_of_room made room e ref, fun full => ?_⟩⟩⟩
  · exact ⟨insertEntry_stays stays e, rfl, rfl, rfl, insert_place⟩
  · refine ⟨rfl, ?_, ?_, ?_, ?_, ?_, rfl, rfl⟩
    · rintro k accented mode hold rfl
      rfl
    · rintro k rfl
      rfl
    · rintro d rfl
      rfl
    · rintro d rfl
      rfl
    · rintro kind h rfl
      rfl
  · dsimp only
    rw [queueEvent_of_full made full]
    refine ⟨?_, ?_, ?_, fun strike release up => refusedEffect_of_lost strike release up e _⟩
    · rintro k accented mode hold rfl
      rfl
    · rintro k rfl
      rfl
    · rintro d rfl
      rfl

/-! ### A link's strike (R57, R58, R183) -/

/-- A request that is taken and runs to an answer OK. -/
theorem exec_answered {c : Instr} {l : Link} {s s' : State} {run : State → Reply × State} {data : List Byte}
    (taken : Takes s l c) (dispatched : exec c s = .next (request l c run s)) (ran : run s = (okWith data, s')) :
    exec c s = .next (respond l c .ok data none s') := by
  rw [dispatched, request_taken taken, ran]
  rfl

/-- The fields of a live strike in range (R182, R183). -/
def liveStrikeOf (k : Key) (options velocity : Byte) (holdLength : BitVec 16) : LiveStrikeFields where
  key := k
  mode := if options.getLsbD 0 then .fixed velocity.toNat else .expression
  at_ := options.getLsbD 1
  hold := if options.getLsbD 2 then some holdLength else none

theorem liveStrikeOf_hold (k : Key) (options velocity : Byte) (holdLength : BitVec 16) :
    (liveStrikeOf k options velocity holdLength).hold.isSome = options.getLsbD 2 := by
  unfold liveStrikeOf
  cases options.getLsbD 2 <;> rfl

theorem liveStrikeFields_of_valid {l : Link} {key options velocity : Byte} {offset holdLength : BitVec 16} {k : Key}
    (valid : liveFieldsValid (.liveStrike l key options velocity offset holdLength) = true)
    (number : key.toNat = k.val + 1) :
    liveStrikeFields key options velocity holdLength = some (liveStrikeOf k options velocity holdLength) := by
  simp only [liveFieldsValid, Bool.and_eq_true] at valid
  obtain ⟨⟨_, unused⟩, hold⟩ := valid
  have admitted : (strikeOptionsValid options && !(optionHold options && decide (holdLength = 0))) = true := by
    rw [Bool.and_eq_true]
    exact ⟨unused, hold⟩
  unfold liveStrikeFields
  rw [if_pos admitted, keyOf_number number]
  rfl

theorem requireLive_pass {s : State} {needsClock : Bool} {places : Nat} (supplied : s.perf.instrument.monitor ≠ .critical)
    (clock : needsClock = true → s.perf.session.state.clockRuns = true)
    (room : s.perf.queue.entries.length + places ≤ 512) (next : State → Reply × State) :
    requireLive needsClock places next s = next s := by
  have clockChecked : (!needsClock || s.clockRuns) = true := by
    cases needsClock with
    | false => rfl
    | true => exact clock rfl
  unfold requireLive
  rw [require_pass (decide_eq_true supplied), require_pass clockChecked, require_pass (decide_eq_true room)]

/-- An accepted LIVE-STRIKE answers with its sequence numbers and plays AT or NOW (R182, R183). -/
theorem exec_liveStrike_taken {l : Link} {key options velocity : Byte} {offset holdLength : BitVec 16} {k : Key} {s : State}
    (taken : LiveTaken s l (.liveStrike l key options velocity offset holdLength)) (number : key.toNat = k.val + 1) :
    let x := liveStrikeOf k options velocity holdLength
    exec (.liveStrike l key options velocity offset holdLength) s
      = .next (respond l (.liveStrike l key options velocity offset holdLength) .ok (strikeData x s) none
          (settled s (if x.at_ then strikeAt l x offset s.env s.perf else strikeNow l x s.env s.perf))) := by
  intro x
  obtain ⟨takes, admitted, valid, supplied, clock, room⟩ := taken
  have places : x.places = livePlaces (.liveStrike l key options velocity offset holdLength) := by
    show (options.getLsbD 1).toNat + x.hold.isSome.toNat = (options.getLsbD 1).toNat + (options.getLsbD 2).toNat
    rw [liveStrikeOf_hold]
  have needs : (x.at_ || x.hold.isSome) = true → 0 < x.places := by
    unfold LiveStrikeFields.places
    cases x.at_ <;> cases x.hold <;> simp
  refine exec_answered takes rfl ?_
  unfold runLiveStrike
  rw [require_pass admitted, liveStrikeFields_of_valid valid number, requireValue_some,
    requireLive_pass supplied (fun h => clock (places ▸ needs h)) (places ▸ room)]
  rfl

/-- Settles O24: AT or NOW, with or without a hold length. -/
theorem liveStrikes : Obligations.LiveStrikes := by
  intro l key options velocity offset holdLength k s taken number
  have played := exec_liveStrike_taken taken number
  dsimp only at played ⊢
  refine ⟨?_, ?_, ?_, ?_⟩ <;>
  · intro timing hold
    simp only [liveStrikeOf, timing, hold] at played
    exact played

end Sys2Proof.Machine
end

section
/-! PROOFS. How an entry leaves the action queue for its owner: by an ENTRY_LAUNCH (O47), and with every other due entry where
the clock starts or the tempo changes (O15). -/

namespace Sys2Proof.Machine

/-! ### The first due entry leaves the queue (R59) -/

/-- A list with a member that the test picks is cut at the first of them. -/
theorem takeFirst_of_mem {test : Entry → Bool} {l : List Entry} {x : Entry} (member : x ∈ l) (picked : test x = true) :
    ∃ before y after, l = before ++ y :: after ∧ (∀ z ∈ before, test z = false) ∧ test y = true
      ∧ takeFirst test l = some (y, before ++ after) := by
  induction l with
  | nil => exact absurd member List.not_mem_nil
  | cons z rest ih =>
    cases hz : test z with
    | true => exact ⟨[], z, rest, rfl, fun _ member => absurd member List.not_mem_nil, hz, if_pos hz⟩
    | false =>
      have inRest : x ∈ rest := (List.mem_cons.1 member).resolve_left (by rintro rfl; simp [picked] at hz)
      obtain ⟨before, y, after, split, unpicked, first, taken⟩ := ih inRest
      refine ⟨z :: before, y, after, congrArg (z :: ·) split, List.forall_mem_cons.2 ⟨hz, unpicked⟩, first, ?_⟩
      simp [takeFirst, hz, taken]

/-- The performance with other entries queued. -/
def withEntries (entries : List Entry) (p : Performance) : Performance :=
  { p with queue := { p.queue with entries := entries } }

theorem withEntries_onlyTime {p q : Performance} (h : onlyTime p q) (entries : List Entry) :
    onlyTime (withEntries entries p) (withEntries entries q) := by
  have queues : p.queue = q.queue := by rw [h]
  have times := congrArg (withEntries entries) h
  unfold onlyTime
  rw [times]
  rfl

theorem launchFirst_of_due {p : Performance} {x : Entry} (queued : x ∈ p.queue.entries) {bound : Nat}
    (due : x.launch ≤ bound) (e : Env) :
    ∃ before y after, p.queue.entries = before ++ y :: after ∧ (∀ z ∈ before, bound < z.launch) ∧ y.launch ≤ bound
      ∧ launchFirst e bound p = some (testEnding e (handOver e y (withEntries (before ++ after) p))) := by
  obtain ⟨before, y, after, split, later, first, taken⟩ :=
    takeFirst_of_mem (test := fun x => decide (x.launch ≤ bound)) queued (decide_eq_true due)
  refine ⟨before, y, after, split, fun z hz => Nat.not_le.1 (of_decide_eq_false (later z hz)), of_decide_eq_true first, ?_⟩
  unfold launchFirst
  rw [taken]
  rfl

/-! ### What follows a launch (R22) -/

theorem completeEnding_state (e : Env) (p : Performance) :
    (completeEnding e p).session.state = .idle ∨ (completeEnding e p).session.state = .rewinding :=
  (afterStop_clear e _ _).1

theorem completeEnding_entries (e : Env) (p : Performance) : (completeEnding e p).queue.entries = [] :=
  List.filter_eq_nil_iff.2 fun _ _ => Bool.false_ne_true

/-- The test of ENDING completes a roll, or it changes nothing. -/
theorem testEnding_cases (e : Env) (p : Performance) : testEnding e p = completeEnding e p ∨ testEnding e p = p := by
  unfold testEnding
  split
  · exact .inl rfl
  · exact .inr rfl

theorem testEnding_idem (e : Env) (p : Performance) : testEnding e (testEnding e p) = testEnding e p := by
  rcases testEnding_cases e p with h | h
  · rw [h]
    refine testEnding_of_ne ?_
    rcases completeEnding_state e p with state | state
    · rw [state]; decide
    · rw [state]; decide
  · rw [h, h]

theorem settle_testEnding (e : Env) (p : Performance) : settle e (testEnding e p) = settle e p := by
  unfold settle
  rw [testEnding_idem]

/-! ### What an owner does with an entry (R60, R66, R74) -/

/-- The launch of an END discards the entries that R66 names. -/
theorem launchEnd_entries (p : Performance) :
    (launchEnd p).queue.entries = p.queue.entries.filter fun y => !y.discardedByEnd := rfl

theorem launchEnd_playing {p : Performance} (h : p.session.state = .playing) :
    (launchEnd p).session = enterEnding p.session :=
  if_pos h

theorem launchEnd_not_playing {p : Performance} (h : p.session.state ≠ .playing) : (launchEnd p).session = p.session :=
  if_neg h

/-- No owner queues an entry: an END takes some away, and the others leave the queue alone. -/
theorem handOver_entries (e : Env) (x : Entry) (p : Performance) :
    (handOver e x p).queue.entries.length ≤ p.queue.entries.length := by
  unfold handOver
  cases x.action with
  | endMark => exact List.length_filter_le _ _
  | strike | release | pedalDown | pedalUp | expression | sectionMark => exact Nat.le_refl _

theorem testEnding_entries (e : Env) (p : Performance) :
    (testEnding e p).queue.entries.length ≤ p.queue.entries.length := by
  rcases testEnding_cases e p with h | h
  · rw [h, completeEnding_entries]
    exact Nat.zero_le _
  · exact Nat.le_of_eq (congrArg (fun q : Performance => q.queue.entries.length) h)

/-! ### ENTRY_LAUNCH (R59) -/

theorem leastLaunch_mem {q : Queue} {least : Nat} (h : leastLaunch q = some least) :
    ∃ x ∈ q.entries, x.launch = least :=
  List.mem_map.1 (List.min?_mem h)

theorem ptMoment_running {p : Performance} (runs : p.session.state.clockRuns = true) {target : Nat}
    (h : target ≤ ptMax) : ∃ t, ptMoment target p = some t := by
  unfold ptMoment
  split
  · exact ⟨_, rfl⟩
  · rw [runs, decide_eq_true h]
    exact ⟨_, rfl⟩

theorem launchMoment_running {p : Performance} (runs : p.session.state.clockRuns = true) {least : Nat}
    (h : leastLaunch p.queue = some least) : launchMoment p = ptMoment least p := by
  unfold launchMoment
  rw [if_pos runs, h]

/-- Time goes to the moment of the launch, and the first due entry goes to its owner. -/
theorem exec_entryLaunch {s : State} (running : s.running = true) {t : Nat} (moment : launchMoment s.perf = some t) :
    exec .entryLaunch s
      = .next (settled s ((launchFirst s.env (advanceTo t s.perf).session.pt (advanceTo t s.perf)).getD
          (advanceTo t s.perf))) := by
  show execEntryLaunch s = _
  unfold execEntryLaunch
  rw [changePerf_running running, moment]
  rfl

/-- Settles O47: PT reaches the least launch time, so an entry is due, and the first of them goes to its owner. -/
theorem launches : Obligations.Launches := by
  intro least s running runs isLeast inRange fraction capped
  obtain ⟨t, moment⟩ := ptMoment_running runs inRange
  have reached : (advanceTo t s.perf).session.pt = max s.perf.session.pt least := advanceTo_ptMoment fraction moment capped
  have queue : (advanceTo t s.perf).queue = s.perf.queue := advance_queue _ _
  obtain ⟨x, queued, launch⟩ := leastLaunch_mem isLeast
  have due : x.launch ≤ (advanceTo t s.perf).session.pt := by
    rw [launch, reached]
    exact Nat.le_max_right _ _
  obtain ⟨before, y, after, split, early, first, launched⟩ := launchFirst_of_due (queue ▸ queued) due s.env
  refine ⟨before, after, y, withEntries (before ++ after) (advanceTo t s.perf), queue ▸ split, early, first, reached,
    withEntries_onlyTime (advanceTo_onlyTime t s.perf) _, ?executes, ?strike, ?release, ?down, ?up, ?bass, ?treble,
    ?sections, fun isEnd => ?ends⟩
  case executes =>
    rw [exec_entryLaunch running ((launchMoment_running runs isLeast).trans moment), launched, Option.getD_some]
    unfold settled
    rw [settle_testEnding]
  case ends =>
    have handed : handOver s.env y (withEntries (before ++ after) (advanceTo t s.perf))
        = launchEnd (withEntries (before ++ after) (advanceTo t s.perf)) := by
      simp only [handOver, isEnd]
    rw [handed, launchEnd_entries]
    refine ⟨rfl, fun playing => ?_, launchEnd_not_playing⟩
    rw [launchEnd_playing playing]
    exact ⟨rfl, rfl⟩
  all_goals
    intros
    simp only [handOver, ‹y.action = _›]
    rfl

/-! ### Every due entry launches (R59, R65) -/

/-- Nothing is left to launch: the clock stands, or no queued entry is due. -/
def NothingToLaunch (p : Performance) : Prop := p.session.state.clockRuns = false ∨ noneDue p

/-- Each launch takes an entry out of the queue, so as many as there are entries leave none that is due. -/
theorem launchUpTo_leaves_none (e : Env) (fuel : Nat) (p : Performance) (enough : p.queue.entries.length ≤ fuel) :
    NothingToLaunch (launchUpTo e fuel p) := by
  induction fuel generalizing p with
  | zero =>
    have empty : p.queue.entries = [] := List.length_eq_zero_iff.1 (Nat.le_zero.1 enough)
    exact .inr fun x queued => absurd (empty ▸ queued : x ∈ []) List.not_mem_nil
  | succ fuel ih =>
    unfold launchUpTo
    split
    · by_cases h : ∃ x ∈ p.queue.entries, x.launch ≤ p.session.pt
      · obtain ⟨x, queued, due⟩ := h
        obtain ⟨before, y, after, split, _, _, launched⟩ := launchFirst_of_due queued due e
        rw [launched]
        refine ih _ (Nat.le_of_lt_succ (Nat.lt_of_lt_of_le ?_ enough))
        calc _ ≤ (handOver e y (withEntries (before ++ after) p)).queue.entries.length := testEnding_entries _ _
          _ ≤ (before ++ after).length := handOver_entries _ _ _
          _ < p.queue.entries.length := by simp [split]
      · have rests : noneDue p := fun x queued => Nat.not_le.1 fun due => h ⟨x, queued, due⟩
        have unlaunched : launchFirst e p.session.pt p = none := by
          unfold launchFirst
          rw [takeFirst_none fun x queued => decide_eq_false (Nat.not_le.2 (rests x queued))]
          rfl
        rw [unlaunched]
        exact .inr rests
    · next stands => exact .inl ((Bool.not_eq_true _).mp stands)

theorem launchDue_leaves_none (e : Env) (p : Performance) : NothingToLaunch (launchDue e p) :=
  launchUpTo_leaves_none e _ p (Nat.le_refl _)

theorem forwardStep_keeps (now : Nat) (x : Session) :
    (forwardStep now x).state = x.state ∧ (forwardStep now x).pt = x.pt := by
  unfold forwardStep
  split
  · exact ⟨rfl, rfl⟩
  · exact ⟨rfl, rfl⟩

theorem testEnding_nothingToLaunch {p : Performance} (h : NothingToLaunch p) (e : Env) :
    NothingToLaunch (testEnding e p) := by
  rcases testEnding_cases e p with completed | left
  · rw [completed]
    refine .inl ?_
    rcases completeEnding_state e p with state | state
    · rw [state]; rfl
    · rw [state]; rfl
  · rwa [left]

/-- What follows every change neither starts the clock nor makes an entry due. -/
theorem settle_nothingToLaunch {p : Performance} (h : NothingToLaunch p) (e : Env) : NothingToLaunch (settle e p) := by
  obtain ⟨state, pt⟩ := forwardStep_keeps (testEnding e p).now (testEnding e p).session
  rcases testEnding_nothingToLaunch h e with stands | rests
  · exact .inl ((congrArg SessionState.clockRuns state).trans stands)
  · exact .inr fun x queued => Nat.lt_of_le_of_lt (Nat.le_of_eq pt) (rests x queued)

/-! ### The three requests (R4, R9, R18) -/

theorem runFree_accepts {l : Link} {s : State} (holds : s.holds l = true) (idle : s.perf.session.state = .idle) :
    runFree l s = accept (fun e p => launchDue e (startExpression e (onSession freeSession p))) s := by
  have stateTaken : s.sessionIn [.idle] = true := by simp [State.sessionIn, idle]
  unfold runFree
  rw [require_pass holds, require_pass stateTaken]

theorem runPlay_accepts {l : Link} {s : State} (holds : s.holds l = true)
    (state : s.perf.session.state = .cued ∨ s.perf.session.state = .paused)
    (supplied : s.perf.instrument.monitor ≠ .critical) :
    runPlay l s = accept (fun e p => launchDue e (onSession (resumeSession p.now) p)) s := by
  have stateTaken : s.sessionIn [.cued, .paused] = true := by simpa [State.sessionIn] using state
  unfold runPlay
  rw [require_pass holds, require_pass stateTaken, require_pass (decide_eq_true supplied)]

theorem runSetTempo_accepts {l : Link} {period : BitVec 24} {s : State} (holds : s.holds l = true)
    (notIdle : s.perf.session.state ≠ .idle) (notRewinding : s.perf.session.state ≠ .rewinding)
    (low : 32000 ≤ period.toNat) (high : period.toNat ≤ 200000) :
    runSetTempo l period s = accept (changeTempo period.toNat) s := by
  have stateTaken : (!s.sessionIn [.idle, .rewinding]) = true := by simp [State.sessionIn, notIdle, notRewinding]
  have value : tempoOf period = some period.toNat :=
    if_pos (by rw [inRange, decide_eq_true low, decide_eq_true high]; rfl)
  unfold runSetTempo
  rw [require_pass holds, require_pass stateTaken, value, requireValue_some]

/-- Settles O15: each of the three requests ends with the launch of every due entry. -/
theorem startLaunchesDue : Obligations.StartLaunchesDue := by
  rintro c l s taken holds (⟨rfl, idle⟩ | ⟨rfl, state, supplied⟩ | ⟨period, rfl, notIdle, notRewinding, low, high⟩)
  · exact ⟨_, exec_answered taken rfl (runFree_accepts holds idle),
      settle_nothingToLaunch (launchDue_leaves_none _ _) s.env⟩
  · exact ⟨_, exec_answered taken rfl (runPlay_accepts holds state supplied),
      settle_nothingToLaunch (launchDue_leaves_none _ _) s.env⟩
  · exact ⟨_, exec_answered taken rfl (runSetTempo_accepts holds notIdle notRewinding low high),
      settle_nothingToLaunch (launchDue_leaves_none _ _) s.env⟩

end Sys2Proof.Machine
end

section
/-! PROOFS. The flags and the steps of the expression halves, and when EXPRESSION_STEP falls (O48). -/

namespace Sys2Proof.Machine

/-! ### The level after a step (R75 to R77) -/

theorem nextLevel_of_frozen {h : Half} (frozen : h.frozen = true) (e : ExpressionRegulation) : h.nextLevel e = h.level := by
  unfold Half.nextLevel
  rw [if_pos frozen]

theorem nextLevel_of_crescendo {h : Half} (moves : h.frozen = false) {e : ExpressionRegulation}
    (rises : 0 < h.crescendoRate e) : h.nextLevel e = min 255 (h.level + h.crescendoRate e) := by
  unfold Half.nextLevel
  rw [if_neg (ne_true_of_eq_false moves), if_pos rises]

/-- A half that is neither frozen nor in crescendo moves toward its target. -/
theorem nextLevel_toward_target {h : Half} (moves : h.frozen = false) {e : ExpressionRegulation}
    (rests : h.crescendoRate e = 0) :
    h.nextLevel e = if h.target e < h.level then max (h.target e) (h.level - e.decayRate)
      else min (h.target e) (h.level + e.slowRate) := by
  unfold Half.nextLevel
  rw [if_neg (ne_true_of_eq_false moves), if_neg (Nat.not_lt.2 (Nat.le_of_eq rests))]

/-- A step changes the level of a half and nothing else. -/
theorem step_of_nextLevel {h : Half} {e : ExpressionRegulation} {level : Nat} (goes : h.nextLevel e = level) :
    h.step e = { h with level := level } := by
  unfold Half.step
  rw [goes]

/-! ### EXPRESSION_STEP (R75, R78) -/

theorem nextStep_not_passed {map : RegulationMap} (period : 0 < stepUnits map) (pt : Nat) (x : Expression) :
    pt ≤ nextStep map pt x := by
  cases owed : x.owed with
  | true => exact Nat.le_of_eq (nextStep_owed owed).symm
  | false =>
    obtain ⟨_, _, notPassed, _⟩ := nextStep_least (pt := pt) owed period
    exact notPassed

theorem exec_expressionStep {s : State} (running : s.running = true) :
    exec .expressionStep s = .next (settled s (expressionStep s.env s.perf)) := by
  show execExpressionStep s = _
  unfold execExpressionStep
  rw [changePerf_running running]
  rfl

/-- A clock that stands short of the next step takes none (R2, R75). -/
theorem expressionStep_standing {e : Env} {p : Performance} (stands : p.session.state.clockRuns = false)
    (short : p.session.pt < nextStep e.map p.session.pt p.expression) : expressionStep e p = p := by
  have never : ptMoment (nextStep e.map p.session.pt p.expression) p = none := by
    unfold ptMoment
    rw [if_neg (Nat.not_le.2 short), stands]
    rfl
  simp only [expressionStep, never, atMoment]

/-- As PT reaches the next step both halves take it. -/
theorem expressionStep_reached {e : Env} {p : Performance} {t : Nat}
    (moment : ptMoment (nextStep e.map p.session.pt p.expression) p = some t) :
    expressionStep e p = { advanceTo t p with
      expression := p.expression.stepAt e.map (nextStep e.map p.session.pt p.expression) } := by
  have kept : (advanceTo t p).expression = p.expression := advance_expression _ _
  simp only [expressionStep, moment, atMoment, kept]

/-- PT reaches every value it does not stand short of for ever. -/
theorem ptMoment_reaches {p : Performance} {target : Nat}
    (reaches : p.session.state.clockRuns = true ∨ target = p.session.pt) (capped : target ≤ ptMax) :
    ∃ t, ptMoment target p = some t := by
  rcases reaches with runs | here
  · exact ptMoment_running runs capped
  · exact ⟨p.now, if_pos (Nat.le_of_eq here)⟩

/-- Settles O48: the level of a half by its flags, and the arrival of PT at the next step. -/
theorem halvesShadeAndStep : Obligations.HalvesShadeAndStep := by
  refine ⟨⟨fun h => ⟨rfl, rfl, rfl, rfl, rfl, rfl, rfl⟩, fun x kind => ⟨rfl, rfl⟩, fun h e => ?level⟩,
    fun s running fraction period => ?event⟩
  case level =>
    exact ⟨fun frozen => step_of_nextLevel (nextLevel_of_frozen frozen e),
      fun moves rises => step_of_nextLevel (nextLevel_of_crescendo moves rises),
      fun moves rests above => step_of_nextLevel ((nextLevel_toward_target moves rests).trans (if_pos above)),
      fun moves rests below => step_of_nextLevel
        ((nextLevel_toward_target moves rests).trans (if_neg (Nat.not_lt.2 below)))⟩
  case event =>
    have units : 0 < stepUnits s.map := Nat.mul_pos period (by decide)
    refine ⟨nextStep_owed, fun owed => nextStep_least owed units, fun stands short => ?_, fun reaches capped => ?_⟩
    · rw [exec_expressionStep running, expressionStep_standing (e := s.env) stands short]
    · have notPassed := nextStep_not_passed units s.perf.session.pt s.perf.expression
      have inTime : s.perf.session.pt ≤ ptMax := Nat.le_trans notPassed capped
      obtain ⟨t, moment⟩ := ptMoment_reaches reaches capped
      refine ⟨advanceTo t s.perf, ?_, ?_, advanceTo_onlyTime t s.perf⟩
      · rw [exec_expressionStep running, expressionStep_reached (e := s.env) moment]
        rfl
      · rw [advanceTo_ptMoment fraction moment inTime]
        exact Nat.max_eq_right notPassed

end Sys2Proof.Machine
end

section
/-! PROOFS. The strike that arrives at a key, and what it does by the state of the key (O49). -/

namespace Sys2Proof.Machine

/-! ### The strike that arrives (R80 to R82, R87 to R89) -/

theorem rawVelocity_eq (map : RegulationMap) (x : Expression) (k : Key) (accented : Bool) (mode : VelocityMode) :
    rawVelocity map x k accented mode =
      let half := if k.val + 1 ≤ map.expression.splitKey then x.bass else x.treble
      match mode with
      | .fixed v => v
      | .expression => if accented then min 255 (half.level + map.expression.accentAdd) else half.level := by
  cases mode with
  | fixed v => rfl
  | expression =>
    have half : x.half (halfOf map k) = if k.val + 1 ≤ map.expression.splitKey then x.bass else x.treble :=
      apply_ite x.half _ _ _
    simp only [rawVelocity, half]

theorem has_insert_empty (a o : Origin) : (Origins.empty.insert a).has o = decide (o = a) := by
  cases a <;> cases o <;> rfl

/-! ### The record of the key that a strike comes to (R87) -/

theorem setKey_self (k : Key) (r : KeyRecord) (i : Instrument) : (setKey k r i).keys[k] = r := by
  simp

@[simp] theorem setKey_setKey (k : Key) (r r' : KeyRecord) (i : Instrument) :
    setKey k r' (setKey k r i) = setKey k r' i := by
  simp [setKey]

/-! ### A key that asks, or does not ask yet (R95, R139) -/

theorem askIfDue_of_not_armed {m : Moment} {k : Key} {i : Instrument} (h : i.keys[k].state ≠ .armed) :
    askIfDue m k i = i := by
  unfold askIfDue
  split
  · contradiction
  · rfl

theorem askIfDue_of_armed {m : Moment} {k : Key} {i : Instrument} {st : Strike} (state : i.keys[k].state = .armed)
    (armed : i.keys[k].armed = some st) :
    askIfDue m k i = if st.fire ≤ m.pt then pass m (askOnly m k i) else i := by
  simp only [askIfDue, state, armed]

/-- A key in ARMED with its record just set asks for nothing until its fire time has come. -/
theorem askIfDue_setKey_waits {m : Moment} {k : Key} {r : KeyRecord} {i : Instrument} {st : Strike}
    (state : r.state = .armed) (armed : r.armed = some st) (early : m.pt < st.fire) :
    askIfDue m k (setKey k r i) = setKey k r i := by
  rw [askIfDue_of_armed (st := st) (by rwa [setKey_self]) (by rwa [setKey_self]), if_neg (Nat.not_le.2 early)]

/-- A key in ARMED with its record just set and its fire time come asks for drive, and a pass runs. -/
theorem askIfDue_setKey_asks {m : Moment} {k : Key} {r : KeyRecord} {i : Instrument} {st : Strike}
    (state : r.state = .armed) (armed : r.armed = some st) (due : st.fire ≤ m.pt) :
    askIfDue m k (setKey k r i)
      = pass m (placeRequest m (.key k) (setKey k { r with state := .wait, requestMoment := some m.now } i)) := by
  rw [askIfDue_of_armed (st := st) (by rwa [setKey_self]) (by rwa [setKey_self]), if_pos due, askOnly, setKey_self,
    setKey_setKey]

/-! ### A pass arms no key (R99, R106) -/

theorem grantKey_not_armed {m : Moment} {k : Key} {requested : Nat} {i : Instrument} {j : Key}
    (h : i.keys[j].state ≠ .armed) : (grantKey m k requested i).keys[j].state ≠ .armed := by
  unfold grantKey
  dsimp only
  split
  · exact h
  · next st _ =>
    by_cases same : k = j
    · subst same
      split <;> simp
    · have apart : k.val ≠ j.val := fun eq => same (Fin.ext eq)
      split <;> simpa [apart] using h

theorem grantPedal_keys (m : Moment) (d : PedalName) (i : Instrument) : (grantPedal m d i).keys = i.keys := by
  unfold grantPedal
  dsimp only
  split <;> cases d <;> simp [enterDown]

theorem pass_not_armed {m : Moment} {i : Instrument} {j : Key} (h : i.keys[j].state ≠ .armed) :
    (pass m i).keys[j].state ≠ .armed := by
  refine pass_induct (P := fun i => i.keys[j].state ≠ .armed) (fun i k h _ _ => ?shed) (fun i e rest h _ _ => ?granted) h
  case shed =>
    rw [shedKey_state]
    split
    · decide
    · exact h
  case granted =>
    unfold grant
    split
    · exact grantKey_not_armed h
    · rw [grantPedal_keys]
      exact h

/-! ### The place of the strike by the state of the key (R91 to R94) -/

section
variable {m : Moment} {k : Key} {new : Strike} {r : KeyRecord} {i : Instrument}

theorem pend_of_none (h : r.pending = none) :
    pend k new (setKey k r i) = setKey k { r with pending := some new } i := by
  simp only [pend, setKey_self, h, setKey_setKey]

theorem pend_of_some {old : Strike} (h : r.pending = some old) :
    pend k new (setKey k r i)
      = setKey k { r with pending := some (old.merge new old.fire) } { i with merged := i.merged + 1 } := by
  simp only [pend, setKey_self, h, setKey_setKey]
  rfl

theorem place_of_rest (h : r.state = .rest ∨ (r.state = .shed ∧ r.returnEnd = none)) :
    place m k new (setKey k r i)
      = setKey k { r with state := .armed, armed := some new, holdStart := none } i := by
  rcases h with state | ⟨state, returned⟩
  · simp only [place, setKey_self, state, arm, setKey_setKey]
  · simp [place, state, returned, arm]

theorem place_of_armed {old : Strike} (state : r.state = .armed) (armed : r.armed = some old) :
    place m k new (setKey k r i)
      = if fireTimesClose old.fire new.fire then
          setKey k { r with armed := some (old.merge new (min old.fire new.fire)) } { i with merged := i.merged + 1 }
        else pend k new (setKey k r i) := by
  simp only [place, placeArmed, setKey_self, state, armed, setKey_setKey]
  rfl

theorem place_of_busy (h : r.state = .wait ∨ r.state = .drive ∨ r.state = .returning
      ∨ (r.state = .shed ∧ r.returnEnd.isSome = true)) :
    place m k new (setKey k r i) = pend k new (setKey k r i) := by
  rcases h with state | state | state | ⟨state, returns⟩
  · simp only [place, setKey_self, state]
  · simp only [place, setKey_self, state]
  · simp only [place, setKey_self, state]
  · simp only [place, setKey_self, state, returns, if_true]

/-- The re-strike of a key in HOLD, with the pass of the unit it returns. -/
theorem place_of_hold (state : r.state = .hold) :
    place m k new (setKey k r i)
      = pass m (setKey k
          { r.switchOff m k with state := .returning, holdStart := none, pending := some new } (returnUnits 1 i)) := by
  simp only [place, setKey_self, state, restrike]
  congr 1
  simp [setKey, returnUnits]

theorem place_of_hold_not_armed (state : r.state = .hold) : (place m k new (setKey k r i)).keys[k].state ≠ .armed := by
  rw [place_of_hold state]
  refine pass_not_armed ?_
  simp

end

theorem fireTimesClose_iff (f g : Nat) : fireTimesClose f g = true ↔ f ≤ g + 50 ∧ g ≤ f + 50 := by
  simp only [fireTimesClose, Bool.and_eq_true, decide_eq_true_eq]

/-! ### The arrival (R87) -/

theorem arrive_of_enabled {x : Expression} {k : Key} {a : Arrival} {m : Moment} {i : Instrument}
    (enabled : m.map.keys[k].enabled = true) :
    arrive x k a m i = askIfDue m k (place m k (newStrike m x k a i)
      (setKey k { i.keys[k] with holders := i.keys[k].holders.insert a.origin } i)) :=
  if_pos enabled

theorem arrive_of_disabled {x : Expression} {k : Key} {a : Arrival} {m : Moment} {i : Instrument}
    (disabled : m.map.keys[k].enabled = false) : arrive x k a m i = countDiscarded 1 i :=
  if_neg (ne_true_of_eq_false disabled)

/-! ### The statement (O49) -/

/-- Settles O49: the record of the strike, its merge, and its arrival by the state of the key. -/
theorem strikesFormAndArrive : Obligations.StrikesFormAndArrive := by
  refine ⟨fun m x k a i => ?forms, fun old st fire => Strike.merge_eq old st fire, fun m x k a i => ?arrives⟩
  case forms =>
    have raw := rawVelocity_eq m.map x k a.accented a.mode
    refine ⟨?_, rfl, rfl, rfl, has_insert_empty a.origin, fun now => ?_, fun t queued => ?_⟩
    · exact congrArg (trimmed x.trim) raw
    · simp only [newStrike, now]
    · simp only [newStrike, queued]
      rfl
  case arrives =>
    intro st r after stands pends inArmed
    refine ⟨arrive_of_disabled, fun enabled => ?_⟩
    have arrives : after = askIfDue m k (place m k st (setKey k r i)) := arrive_of_enabled enabled
    have asks {n : Counter} {r' : KeyRecord} {new : Strike} (state : r'.state = .armed) (armed : r'.armed = some new)
        (left : after = askIfDue m k (setKey k r' { i with merged := n })) : inArmed new.fire { i with merged := n } r' :=
      ⟨fun early => left.trans (askIfDue_setKey_waits state armed early),
        fun due => left.trans (askIfDue_setKey_asks state armed due)⟩
    have rests {n : Counter} {r' : KeyRecord} (state : r'.state ≠ .armed)
        (left : after = askIfDue m k (setKey k r' { i with merged := n })) : stands { i with merged := n } r' :=
      left.trans (askIfDue_of_not_armed (by rwa [setKey_self]))
    refine ⟨fun rest => ?rest, fun old state armed => ⟨fun near => ?near, fun far => ?far⟩, fun busy => ?busy, fun hold => ?hold⟩
    case rest =>
      exact asks (n := i.merged) rfl rfl (by rw [arrives, place_of_rest rest])
    case near =>
      refine asks (r' := { r with armed := some (old.merge st (min old.fire st.fire)) }) state rfl ?_
      rw [arrives, place_of_armed state armed, if_pos ((fireTimesClose_iff _ _).2 near)]
    case far =>
      have apart : ¬ fireTimesClose old.fire st.fire = true := by
        rw [fireTimesClose_iff]
        omega
      have pended : after = askIfDue m k (pend k st (setKey k r i)) := by
        rw [arrives, place_of_armed state armed, if_neg apart]
      exact ⟨fun empty => asks (n := i.merged) state armed (by rw [pended, pend_of_none empty]),
        fun first full => asks state armed (by rw [pended, pend_of_some full])⟩
    case busy =>
      have notArmed : r.state ≠ .armed := by
        rcases busy with state | state | state | ⟨state, _⟩ <;> simp [state]
      have pended : after = askIfDue m k (pend k st (setKey k r i)) := by rw [arrives, place_of_busy busy]
      exact ⟨fun empty => rests (n := i.merged) notArmed (by rw [pended, pend_of_none empty]),
        fun first full => rests notArmed (by rw [pended, pend_of_some full])⟩
    case hold =>
      rw [arrives, askIfDue_of_not_armed (place_of_hold_not_armed hold), place_of_hold hold]
      rfl

end Sys2Proof.Machine
end

section
/-! PROOFS. A write of a record of the working map (O27), and the load of a profile (O28). -/

namespace Sys2Proof.Machine

/-! ### Numbers read back from their characters (Section 10.7) -/

theorem charAt_eq {l : List Byte} {i n : Nat} (char : l.getD i 0 = BitVec.ofNat 8 n) (fits : n < 256) : charAt l i = n := by
  rw [charAt, char, BitVec.toNat_ofNat, Nat.mod_eq_of_lt fits]

theorem wordAt_eq {l : List Byte} {i n : Nat} (low : l.getD i 0 = BitVec.ofNat 8 n)
    (high : l.getD (i + 1) 0 = BitVec.ofNat 8 (n / 256)) (fits : n < 65536) : wordAt l i = n := by
  rw [wordAt, charAt_eq high (by omega), charAt, low, BitVec.toNat_ofNat]
  omega

theorem charAt_append (front back : List Byte) (j : Nat) : charAt (front ++ back) (front.length + j) = charAt back j := by
  rw [charAt, charAt, List.getD_eq_getElem?_getD, List.getD_eq_getElem?_getD,
    List.getElem?_append_right (Nat.le_add_right _ _), Nat.add_sub_cancel_left]

theorem wordAt_append (front back : List Byte) (j : Nat) : wordAt (front ++ back) (front.length + j) = wordAt back j := by
  rw [wordAt, wordAt, charAt_append, Nat.add_assoc, charAt_append]

/-- The number in a place of a row of numbers in two characters each. -/
theorem wordAt_row {numbers : List Nat} {t : Nat} (inside : t < numbers.length) (fits : numbers[t] < 65536)
    (back : List Byte) : wordAt (numbers.flatMap char2 ++ back) (2 * t) = numbers[t] := by
  induction numbers generalizing t with
  | nil => exact absurd inside (Nat.not_lt_zero t)
  | cons n rest ih =>
    cases t with
    | zero => exact wordAt_eq rfl rfl fits
    | succ t => exact ih (Nat.lt_of_succ_lt_succ inside) fits

theorem length_row (numbers : List Nat) : (numbers.flatMap char2).length = 2 * numbers.length := by
  induction numbers with
  | nil => rfl
  | cons n rest ih => rw [List.flatMap_cons, List.length_append, ih, List.length_cons, Nat.mul_succ, Nat.add_comm]; rfl

/-! ### Records read back from their characters (R153, Section 10.7.6) -/

theorem ifValid_of_eq {α : Type} {valid : α → Bool} {read r : α} (same : read = r) (inRange : valid r = true) :
    ifValid valid read = some r := by
  rw [same]
  exact if_pos inRange

theorem keyRecordOf_contents {r : KeyRegulation} (valid : r.valid = true) (k : Key) :
    keyRecordOf (recordContents (.key k r)) = some r := by
  have flag : flagOf ((recordContents (.key k r)).getD 0 0) = some r.enabled := by
    show flagOf (BitVec.ofNat 8 r.enabled.toNat) = some r.enabled
    cases r.enabled <;> rfl
  have ranges := valid
  unfold keyRecordOf
  rw [flag]
  refine ifValid_of_eq ?_ valid
  cases r
  simp only [KeyRegulation.valid, inRange, Bool.and_eq_true, decide_eq_true_eq] at ranges
  simp only [KeyRegulation.mk.injEq, recordContents, char1, char2, List.cons_append, List.nil_append, true_and]
  exact ⟨wordAt_eq rfl rfl (by omega), wordAt_eq rfl rfl (by omega), wordAt_eq rfl rfl (by omega),
    wordAt_eq rfl rfl (by omega), charAt_eq rfl (by omega), charAt_eq rfl (by omega), charAt_eq rfl (by omega),
    wordAt_eq rfl rfl (by omega), charAt_eq rfl (by omega), wordAt_eq rfl rfl (by omega), charAt_eq rfl (by omega)⟩

theorem pedalRecordOf_contents {r : PedalRegulation} (valid : r.valid = true) (d : PedalName) :
    pedalRecordOf (recordContents (.pedal d r)) = some r := by
  have ranges := valid
  refine ifValid_of_eq ?_ valid
  cases r
  simp only [PedalRegulation.valid, inRange, Bool.and_eq_true, decide_eq_true_eq] at ranges
  simp only [PedalRegulation.mk.injEq, recordContents, char1, char2, List.cons_append, List.nil_append]
  exact ⟨wordAt_eq rfl rfl (by omega), wordAt_eq rfl rfl (by omega), wordAt_eq rfl rfl (by omega),
    wordAt_eq rfl rfl (by omega), charAt_eq rfl (by omega), charAt_eq rfl (by omega), charAt_eq rfl (by omega),
    wordAt_eq rfl rfl (by omega)⟩

theorem expressionRecordOf_contents {r : ExpressionRegulation} (valid : r.valid = true) :
    expressionRecordOf (recordContents (.expression r)) = some r := by
  have ranges := valid
  refine ifValid_of_eq ?_ valid
  cases r
  simp only [ExpressionRegulation.valid, inRange, Bool.and_eq_true, decide_eq_true_eq] at ranges
  simp only [ExpressionRegulation.mk.injEq, recordContents, char1, List.cons_append, List.nil_append]
  exact ⟨charAt_eq rfl (by omega), charAt_eq rfl (by omega), charAt_eq rfl (by omega), charAt_eq rfl (by omega),
    charAt_eq rfl (by omega), charAt_eq rfl (by omega), charAt_eq rfl (by omega), charAt_eq rfl (by omega)⟩

theorem supplyRecordOf_contents {r : SupplyRegulation} (valid : r.valid = true) :
    supplyRecordOf (recordContents (.supply r)) = some r := by
  have ranges := valid
  refine ifValid_of_eq ?_ valid
  cases r
  simp only [SupplyRegulation.valid, inRange, Bool.and_eq_true, decide_eq_true_eq] at ranges
  rw [SupplyRegulation.mk.injEq]
  exact ⟨charAt_eq rfl (by omega), charAt_eq rfl (by omega)⟩

theorem centre_le {r : TrackerRegulation} (valid : r.valid = true) {t : Nat} (inside : t < 99) : r.centres[t] ≤ 1199 := by
  simp only [TrackerRegulation.valid, Bool.and_eq_true, List.all_eq_true] at valid
  obtain ⟨⟨⟨⟨⟨centres, _⟩, _⟩, _⟩, _⟩, _⟩ := valid
  have range := centres r.centres[t] (by simp)
  simp only [inRange, Bool.and_eq_true, decide_eq_true_eq] at range
  exact range.2

theorem trackerRecordOf_contents {r : TrackerRegulation} (valid : r.valid = true) :
    trackerRecordOf (recordContents (.tracker r)) = some r := by
  have ranges := valid
  simp only [TrackerRegulation.valid, inRange, Bool.and_eq_true, decide_eq_true_eq] at ranges
  have row : (r.centres.toList.flatMap char2).length = 198 := by rw [length_row, Vector.length_toList]
  have contents : recordContents (.tracker r) = r.centres.toList.flatMap char2
      ++ (char2 r.leftEdge ++ char2 r.rightEdge ++ char1 r.soundingDistance) := by
    simp only [recordContents, List.append_assoc]
  refine ifValid_of_eq ?_ valid
  have centres : (Vector.ofFn fun t : Fin 99 => wordAt (recordContents (.tracker r)) (2 * t.val)) = r.centres := by
    refine Vector.ext fun t inside => ?_
    have place : t < r.centres.toList.length := by rwa [Vector.length_toList]
    have centre := centre_le valid inside
    rw [Vector.getElem_ofFn, contents, wordAt_row place (by simp; omega)]
    simp
  have left : wordAt (recordContents (.tracker r)) 198 = r.leftEdge := by
    rw [contents]
    exact (row ▸ wordAt_append _ _ 0).trans (wordAt_eq rfl rfl (by omega))
  have right : wordAt (recordContents (.tracker r)) 200 = r.rightEdge := by
    rw [contents]
    exact (row ▸ wordAt_append _ _ 2).trans (wordAt_eq rfl rfl (by omega))
  have distance : charAt (recordContents (.tracker r)) 202 = r.soundingDistance := by
    rw [contents]
    exact (row ▸ charAt_append _ _ 4).trans (charAt_eq rfl (by omega))
  rw [centres, left, right, distance]

theorem keyOf_recordIndex (k : Key) (r : KeyRegulation) : keyOf (recordIndex (.key k r)) = some k := by
  refine keyOf_number ?_
  rw [recordIndex, BitVec.toNat_ofNat]
  omega

theorem pedalOf_recordIndex (d : PedalName) (r : PedalRegulation) : pedalOf (recordIndex (.pedal d r)) = some d := by
  cases d <;> rfl

/-- Every record in range is read from its characters. -/
theorem recordOf_contents {w : RecordWrite} (valid : w.valid = true) :
    recordOf (recordSelector w) (recordIndex w) (recordContents w) = some w := by
  cases w with
  | key k r => simp [recordOf, recordSelector, keyOf_recordIndex, keyRecordOf_contents valid]
  | pedal d r => simp [recordOf, recordSelector, pedalOf_recordIndex, pedalRecordOf_contents valid]
  | expression r => simp [recordOf, recordSelector, recordIndex, expressionRecordOf_contents valid]
  | tracker r => simp [recordOf, recordSelector, recordIndex, trackerRecordOf_contents valid]
  | supply r => simp [recordOf, recordSelector, recordIndex, supplyRecordOf_contents valid]

/-! ### The checks of WRITE-RECORD (R153, R157, R180) -/

/-- A request that is taken and refused changes nothing. -/
theorem exec_refused {c : Instr} {l : Link} {s : State} {run : State → Reply × State} {result : Result}
    (taken : Takes s l c) (dispatched : exec c s = .next (request l c run s)) (ran : run s = (refuse result, s)) :
    exec c s = .next (respond l c result [] none s) := by
  rw [dispatched, request_taken taken, ran]
  rfl

theorem mayWrite_of_claim {s : State} {l : Link}
    (claim : s.otherHolds l = false ∨ s.perf.session.state.inProgress = false) : s.mayWrite l = true := by
  have mayWrite : s.mayWrite l = (!s.perf.session.state.inProgress || !s.otherHolds l) := by
    unfold State.mayWrite
    cases s.perf.session.state <;> rfl
  rw [mayWrite]
  rcases claim with free | idle
  · rw [free, Bool.not_false, Bool.or_true]
  · rw [idle, Bool.not_false, Bool.true_or]

theorem mayWriteTracker_iff (s : State) (selector : Byte) :
    s.mayWriteTracker selector = true
      ↔ selector ≠ 3 ∨ s.perf.session.state = .idle ∨ s.perf.session.state = .free := by
  unfold State.mayWriteTracker
  rw [Bool.or_eq_true, decide_eq_true_eq]
  cases s.perf.session.state <;> simp

section
variable {l : Link} {s : State} {selector index : Byte} {contents : List Byte}

theorem exec_writeRecord_badState (taken : Takes s l (.writeRecord l selector index contents))
    (mayWrite : s.mayWrite l = true) (stands : s.mayWriteTracker selector = false) :
    exec (.writeRecord l selector index contents) s
      = .next (respond l (.writeRecord l selector index contents) .badState [] none s) := by
  refine exec_refused taken rfl ?_
  unfold runWriteRecord
  rw [require_pass mayWrite, require_fail stands]

theorem exec_writeRecord_outOfRange (taken : Takes s l (.writeRecord l selector index contents))
    (mayWrite : s.mayWrite l = true) (mayTracker : s.mayWriteTracker selector = true)
    (unreadable : recordOf selector index contents = none) :
    exec (.writeRecord l selector index contents) s
      = .next (respond l (.writeRecord l selector index contents) .outOfRange [] none s) := by
  refine exec_refused taken rfl ?_
  unfold runWriteRecord
  rw [require_pass mayWrite, require_pass mayTracker, unreadable, requireValue_none]

theorem exec_writeRecord_ok {w : RecordWrite} (taken : Takes s l (.writeRecord l selector index contents))
    (mayWrite : s.mayWrite l = true) (mayTracker : s.mayWriteTracker selector = true)
    (read : recordOf selector index contents = some w) :
    exec (.writeRecord l selector index contents) s
      = .next (respond l (.writeRecord l selector index contents) .ok [] none
          (changeMap (s.map.write w) w.isSupply s)) := by
  refine exec_answered taken rfl ?_
  unfold runWriteRecord
  rw [require_pass mayWrite, require_pass mayTracker, read, requireValue_some]
  rfl

end

/-! ### What a change of the working map takes with it (R78, R150) -/

theorem newStepPeriod_of_same {old new : RegulationMap} (same : old.expression.stepPeriod = new.expression.stepPeriod)
    (now : Nat) (x : Session) (expression : Expression) : newStepPeriod now old new x expression = expression :=
  if_pos (.inl same)

/-- A record other than expression and supply changes the working map alone. -/
theorem changeMap_of_other {w : RecordWrite} (notExpression : recordSelector w ≠ 2) (notSupply : recordSelector w ≠ 4)
    (s : State) : changeMap (s.map.write w) w.isSupply s = { s with map := s.map.write w } := by
  have same : s.map.expression = (s.map.write w).expression ∧ w.isSupply = false := by
    cases w with
    | key k r => exact ⟨rfl, rfl⟩
    | pedal d r => exact ⟨by cases d <;> rfl, rfl⟩
    | tracker r => exact ⟨rfl, rfl⟩
    | expression r => exact absurd rfl notExpression
    | supply r => exact absurd rfl notSupply
  obtain ⟨expression, isSupply⟩ := same
  simp only [changeMap, isSupply, newStepPeriod_of_same (congrArg ExpressionRegulation.stepPeriod expression)]
  rfl

/-- The supply record takes effect at once, and the next step falls where it fell. -/
theorem changeMap_of_supply (r : SupplyRegulation) (s : State) :
    let t : State := { s with map := s.map.write (.supply r) }
    changeMap (s.map.write (.supply r)) true s
      = settled t { s.perf with instrument := newSupplyRecord t.moment s.perf.instrument } := by
  have same : s.map.expression.stepPeriod = (s.map.write (.supply r)).expression.stepPeriod := rfl
  simp only [changeMap, newStepPeriod_of_same same]
  rfl

/-- The wait list with the drop moments that a late limit in ms gives its entries (R150). -/
def againLimited (lateLimit : Nat) (waitList : List WaitEntry) : List WaitEntry :=
  waitList.map fun e => { e with dropMoment := e.requestMoment + lateLimit * 1000 }

/-- The entries whose drop moment has come. -/
def dueToDrop (now : Nat) (waitList : List WaitEntry) : List WaitEntry :=
  waitList.filter fun e => decide (e.dropMoment ≤ now)

/-- A new supply record sets the drop moments again, drops the entries that are due by them, and runs one pass (R150; log 13). -/
theorem newSupplyRecord_eq (m : Moment) (i : Instrument) :
    let again := againLimited m.map.supply.lateLimit i.waitList
    newSupplyRecord m i
      = pass m ((dueToDrop m.now again).foldl (fun acc e => dropOnly m e acc) { i with waitList := again }) := rfl

theorem newSupplyRecord_of_none_due {m : Moment} {i : Instrument}
    (noneDue : dueToDrop m.now (againLimited m.map.supply.lateLimit i.waitList) = []) :
    newSupplyRecord m i = pass m { i with waitList := againLimited m.map.supply.lateLimit i.waitList } := by
  rw [newSupplyRecord_eq, noneDue]
  rfl

/-- Settles O27: the record is read back from its characters, and each kind of record has its effect. -/
theorem mapWrites : Obligations.MapWrites := by
  intro l s claim
  have mayWrite := mayWrite_of_claim claim
  refine ⟨fun w valid => ?record, fun selector index contents => ?refusals⟩
  case record =>
    intro c t taken tracker
    have mayTracker : s.mayWriteTracker (recordSelector w) = true := by
      rw [mayWriteTracker_iff]
      by_cases isTracker : recordSelector w = 3
      · exact .inr (tracker isTracker)
      · exact .inl isTracker
    have written := exec_writeRecord_ok taken mayWrite mayTracker (recordOf_contents valid)
    refine ⟨fun notExpression notSupply => ?other, fun isExpression => ?expression, fun r isSupply => ?supply⟩
    case other => rw [written, changeMap_of_other notExpression notSupply]
    case expression =>
      have notSupply : w.isSupply = false := by
        cases w with
        | supply r => simp [recordSelector] at isExpression
        | _ => rfl
      refine ⟨_, newStepPeriod_stepsAnew s (s.map.write w), ?_⟩
      rw [written, notSupply]
      rfl
    case supply =>
      subst isSupply
      have effect := written.trans (by rw [RecordWrite.isSupply, changeMap_of_supply])
      refine ⟨effect, fun noneDue => effect.trans ?_⟩
      rw [newSupplyRecord_of_none_due (m := State.moment { s with map := s.map.write (.supply r) }) noneDue]
      rfl
  case refusals =>
    intro c taken
    refine ⟨fun isTracker notIdle notFree => ?_, fun mayTracker unreadable => ?_⟩
    · have stands : s.mayWriteTracker selector = false := by
        rw [← Bool.not_eq_true, mayWriteTracker_iff]
        simp [isTracker, notIdle, notFree]
      exact exec_writeRecord_badState taken mayWrite stands
    · exact exec_writeRecord_outOfRange taken mayWrite ((mayWriteTracker_iff s _).2 mayTracker) unreadable

/-! ### The values of LOAD-PROFILE (R164; log 30) -/

theorem profileAndFlag_of_out {profile boot : Byte} (out : 4 ≤ profile.toNat ∨ 2 ≤ boot.toNat) :
    profileAndFlag profile boot = none := by
  unfold profileAndFlag
  rcases out with noProfile | noFlag
  · have profileNone : profileOf profile = none := dif_neg (Nat.not_lt.2 noProfile)
    rw [profileNone]
  · have flagNone : flagOf boot = none := by
      unfold flagOf
      rw [if_neg (by rintro rfl; simp at noFlag), if_neg (by rintro rfl; simp at noFlag)]
    rw [flagNone]
    cases profileOf profile <;> rfl

theorem profileAndFlag_of_in {profile boot : Byte} {n : Fin 4} (number : profile.toNat = n.val) (flag : boot.toNat < 2) :
    profileAndFlag profile boot = some (n, decide (boot = 1)) := by
  have profileSome : profileOf profile = some n := by
    unfold profileOf
    rw [dif_pos (number ▸ n.isLt)]
    exact congrArg some (Fin.ext number)
  have flagSome : flagOf boot = some (decide (boot = 1)) := by
    have either : boot = 0 ∨ boot = 1 := by bv_omega
    rcases either with rfl | rfl <;> rfl
  unfold profileAndFlag
  rw [profileSome, flagSome]

/-! ### A new map on a quiet instrument (R164, R165) -/

theorem quiet_iff (s : State) :
    s.quiet = true ↔ s.perf.session.state = .idle ∧ s.perf.queue.entries = []
      ∧ (∀ k : Key, s.perf.instrument.keys[k].state = .rest)
      ∧ s.perf.instrument.damper.atRest = true ∧ s.perf.instrument.shift.atRest = true := by
  have keys : keysAtRest s.perf.instrument = true ↔ ∀ k : Key, s.perf.instrument.keys[k].state = .rest := by
    unfold keysAtRest
    simp only [List.all_eq_true, decide_eq_true_eq]
    refine ⟨fun all k => all _ (by simp), fun all r listed => ?_⟩
    obtain ⟨n, inside, rfl⟩ := List.mem_iff_getElem.1 listed
    rw [Vector.length_toList] at inside
    simpa using all ⟨n, inside⟩
  unfold State.quiet
  simp only [Bool.and_eq_true, decide_eq_true_eq, List.isEmpty_iff, keys, and_assoc]

/-- A pass with nothing waiting and no key to shed changes nothing (R141). -/
theorem pass_of_rest {m : Moment} {i : Instrument} (empty : i.waitList = []) (noHold : ∀ k : Key, i.keys[k].state ≠ .hold) :
    pass m i = i := by
  have noShed : shedOne m i = none := by
    unfold shedOne
    rw [oldestHold_none.2 noHold]
    split <;> rfl
  refine pass_of_none ?_
  unfold passMove
  rw [empty, noShed]
  split <;> rfl

theorem newSupplyRecord_of_rest {m : Moment} {i : Instrument} (empty : i.waitList = [])
    (rest : ∀ k : Key, i.keys[k].state = .rest) : newSupplyRecord m i = i := by
  have same : { i with waitList := againLimited m.map.supply.lateLimit i.waitList } = i := by
    rw [empty, againLimited, List.map_nil, ← empty]
  rw [newSupplyRecord_of_none_due (by rw [empty]; rfl), same]
  exact pass_of_rest empty fun k => by rw [rest k]; decide

theorem settle_of_idle {e : Env} {p : Performance} (idle : p.session.state = .idle) : settle e p = p := by
  have noStep : p.session.wantsStep = false := by
    simp [Session.wantsStep, Session.steps, idle]
  rw [settle_of_left (fun ending => absurd (idle.symm.trans ending) (by decide)), onSession, forwardStep_of_none noStep]

/-- A new map on a quiet instrument that waits for nothing changes besides the map only what decides the next step (R78). -/
theorem changeMap_of_quiet {s : State} (quiet : s.quiet = true) (empty : s.perf.instrument.waitList = [])
    (new : RegulationMap) (supply : Bool) :
    changeMap new supply s = { s with
      map := new
      perf := { s.perf with
        expression := newStepPeriod s.perf.now s.map new s.perf.session s.perf.expression } } := by
  obtain ⟨idle, _, rest, _⟩ := (quiet_iff s).1 quiet
  cases supply with
  | false => rfl
  | true =>
    simp only [changeMap, if_true, onPerf, onInstrument]
    rw [newSupplyRecord_of_rest empty rest, settle_of_idle]
    exact idle

/-! ### The statement (O28) -/

theorem runLoadProfile_judges {l : Link} {s : State} (claim : s.otherHolds l = false) {profile boot : Byte} {n : Fin 4}
    {flag : Bool} (values : profileAndFlag profile boot = some (n, flag)) :
    runLoadProfile l profile boot s
      = require (fun s => s.storeIdle) .storeBusy (require (fun s => s.quiet) .badState
          (require (fun s => s.store.profiles[n].intact) .profileDamaged fun s => (okReply, loadProfile n flag s))) s := by
  unfold runLoadProfile
  rw [require_pass (by rw [claim]; rfl), values, requireValue_some]

/-- Settles O28: each check answers in its turn, and a load on a quiet instrument that waits for nothing has no effect but its own. -/
theorem profileLoads : Obligations.ProfileLoads := by
  intro l profile boot s c taken claim
  refine ⟨fun out => exec_refused taken rfl ?outOfRange, fun n number flag => ?inRange⟩
  case outOfRange =>
    unfold runLoadProfile
    rw [require_pass (by rw [claim]; rfl), profileAndFlag_of_out out, requireValue_none]
  case inRange =>
    have judges := runLoadProfile_judges claim (profileAndFlag_of_in number flag)
    refine ⟨fun busy => exec_refused taken rfl ?_, fun free => ?_⟩
    · have notIdle : s.storeIdle = false := by simpa [State.storeIdle, Option.isSome_iff_ne_none] using busy
      rw [judges, require_fail notIdle]
    have storeIdle : s.storeIdle = true := by simp [State.storeIdle, free]
    refine ⟨fun sounding => exec_refused taken rfl ?_, fun quiet damaged => exec_refused taken rfl ?_,
      fun quiet intact empty => ⟨_, newStepPeriod_stepsAnew s s.store.profiles[n].contents, exec_answered taken rfl ?_⟩⟩
    · rw [judges, require_pass storeIdle, require_fail sounding]
    · rw [judges, require_pass storeIdle, require_pass quiet, require_fail damaged]
    · rw [judges, require_pass storeIdle, require_pass quiet, require_pass intact, loadProfile,
        changeMap_of_quiet (s := onStore _ s) quiet empty]
      simp [onStore, okReply]

end Sys2Proof.Machine
end

section
/-! PROOFS. STANDBY, the entry to standby, the service line and the roll-present line, and the end of stabilisation (O32). -/

namespace Sys2Proof.Machine

/-! ### What keys and pedals do leaves the monitor level (R110, R112, R133, R134) -/

@[simp] theorem askIfDueOnly_monitor (m : Moment) (k : Key) (i : Instrument) :
    (askIfDueOnly m k i).monitor = i.monitor := by
  unfold askIfDueOnly
  split
  · split <;> rfl
  · rfl

@[simp] theorem emptiedOnly_monitor (m : Moment) (k : Key) (i : Instrument) :
    (emptiedOnly m k i).monitor = i.monitor := by
  simp only [emptiedOnly]
  split <;> rfl

@[simp] theorem loseArmedOnly_monitor (m : Moment) (k : Key) (i : Instrument) :
    (loseArmedOnly m k i).monitor = i.monitor := by
  simp only [loseArmedOnly]
  split
  · simp
  · rfl

@[simp] theorem pauseKeyOnly_monitor (m : Moment) (k : Key) (i : Instrument) :
    (pauseKeyOnly m k i).monitor = i.monitor := by
  rw [pauseKeyOnly_eq]
  split
  · exact loseArmedOnly_monitor ..
  · split
    · exact emptiedOnly_monitor ..
    · rfl

theorem forKeys_monitor {f : Key → Instrument → Instrument} (keeps : ∀ k i, (f k i).monitor = i.monitor)
    (i : Instrument) : (forKeys f i).monitor = i.monitor :=
  forKeys_induct (P := fun j => j.monitor = i.monitor) (fun k j same => (keeps k j).trans same) rfl

@[simp] theorem pauseKeysOnly_monitor (m : Moment) (i : Instrument) : (pauseKeysOnly m i).monitor = i.monitor :=
  forKeys_monitor (pauseKeyOnly_monitor m) i

@[simp] theorem criticalKeysOnly_monitor (m : Moment) (i : Instrument) :
    (criticalKeysOnly m i).monitor = i.monitor :=
  forKeys_monitor (fun k i => by rw [criticalKeyOnly_eq]) i

@[simp] theorem cutShed_monitor (i : Instrument) : (cutShed i).monitor = i.monitor := by
  refine forKeys_monitor (fun k i => ?_) i
  dsimp only
  split <;> rfl

@[simp] theorem goUpOnly_monitor (m : Moment) (d : PedalName) (withAssist : Bool) (i : Instrument) :
    (goUpOnly m d withAssist i).monitor = i.monitor := by
  cases d <;> simp [goUpOnly]

@[simp] theorem upRequestOnly_monitor (m : Moment) (d : PedalName) (i : Instrument) :
    (upRequestOnly m d i).monitor = i.monitor := by
  simp only [upRequestOnly]
  split
  · simp
  · split <;> simp

@[simp] theorem leavePedalOnly_monitor (m : Moment) (d : PedalName) (o : Origin) (i : Instrument) :
    (leavePedalOnly m d o i).monitor = i.monitor := by
  simp only [leavePedalOnly]
  split
  · split <;> simp
  · rfl

@[simp] theorem pauseInstrument_monitor (m : Moment) (i : Instrument) : (pauseInstrument m i).monitor = i.monitor := by
  simp [pauseInstrument]

@[simp] theorem criticalPedalOnly_monitor (m : Moment) (d : PedalName) (i : Instrument) :
    (criticalPedalOnly m d i).monitor = i.monitor := by
  simp only [criticalPedalOnly]
  split <;> simp

/-- A change of the monitor level ends at the new level (R146 to R148). -/
@[simp] theorem monitorChange_monitor (level : MonitorLevel) (m : Moment) (i : Instrument) :
    (monitorChange level m i).monitor = level := by
  cases level with
  | normal => simp [monitorChange]
  | low => simp [monitorChange]
  | critical => simp [monitorChange, enterCritical]

/-! ### What the session does leaves real time and the monitor level (R20, R22, R26) -/

@[simp] theorem completeEnding_now (e : Env) (p : Performance) : (completeEnding e p).now = p.now := rfl

@[simp] theorem completeEnding_monitor (e : Env) (p : Performance) :
    (completeEnding e p).instrument.monitor = p.instrument.monitor := by
  simp [completeEnding, stopSession]

@[simp] theorem settle_now (e : Env) (p : Performance) : (settle e p).now = p.now := by
  rcases testEnding_cases e p with same | same <;> simp [settle, same]

@[simp] theorem settle_monitor (e : Env) (p : Performance) :
    (settle e p).instrument.monitor = p.instrument.monitor := by
  rcases testEnding_cases e p with same | same <;> simp [settle, same]

@[simp] theorem criticalSession_now (e : Env) (p : Performance) : (criticalSession e p).now = p.now := by
  unfold criticalSession
  split
  · simp [pauseSession]
  · rfl

@[simp] theorem criticalSession_monitor (e : Env) (p : Performance) :
    (criticalSession e p).instrument.monitor = p.instrument.monitor := by
  unfold criticalSession
  split
  · simp [pauseSession]
  · rfl

@[simp] theorem changeMonitor_now (level : MonitorLevel) (e : Env) (p : Performance) :
    (changeMonitor level e p).now = p.now := by
  simp only [changeMonitor]
  split <;> simp

@[simp] theorem changeMonitor_monitor (level : MonitorLevel) (e : Env) (p : Performance) :
    (changeMonitor level e p).instrument.monitor = level := by
  simp only [changeMonitor]
  split <;> simp

/-! ### The monitor level is read while the part runs (R138, R204) -/

theorem readMonitor_of_stopped {s : State} (stopped : s.running = false) : readMonitor s = s := by
  simp [readMonitor, stopped]

@[simp] theorem readMonitor_map (s : State) : (readMonitor s).map = s.map := by
  unfold readMonitor
  split <;> rfl

@[simp] theorem readMonitor_store (s : State) : (readMonitor s).store = s.store := by
  unfold readMonitor
  split <;> rfl

@[simp] theorem readMonitor_claim (s : State) : (readMonitor s).claim = s.claim := by
  unfold readMonitor
  split <;> rfl

@[simp] theorem readMonitor_power (s : State) : (readMonitor s).power = s.power := by
  unfold readMonitor
  split <;> rfl

@[simp] theorem readMonitor_pins (s : State) : (readMonitor s).pins = s.pins := by
  unfold readMonitor
  split <;> rfl

@[simp] theorem readMonitor_link (l : Link) (s : State) : (readMonitor s).link l = s.link l := by
  unfold readMonitor
  split <;> simp

@[simp] theorem readMonitor_now (s : State) : (readMonitor s).perf.now = s.perf.now := by
  unfold readMonitor
  split <;> simp

/-- While the part runs the budget has the level at the input. -/
theorem readMonitor_monitor {s : State} (running : s.running = true) :
    (readMonitor s).perf.instrument.monitor = s.pins.level := by
  unfold readMonitor
  by_cases same : s.pins.level = s.perf.instrument.monitor
  · simp [same]
  · simp [running, same]

/-! ### The next transmission of a link changes its transmitter alone (R194) -/

@[simp] theorem resumeSending_perf (l : Link) (s : State) : (resumeSending l s).perf = s.perf := by
  unfold resumeSending
  split <;> simp

@[simp] theorem resumeSending_map (l : Link) (s : State) : (resumeSending l s).map = s.map := by
  unfold resumeSending
  split <;> simp

@[simp] theorem resumeSending_store (l : Link) (s : State) : (resumeSending l s).store = s.store := by
  unfold resumeSending
  split <;> simp

@[simp] theorem resumeSending_claim (l : Link) (s : State) : (resumeSending l s).claim = s.claim := by
  unfold resumeSending
  split <;> simp

@[simp] theorem resumeSending_power (l : Link) (s : State) : (resumeSending l s).power = s.power := by
  unfold resumeSending
  split <;> simp

@[simp] theorem resumeSending_pins (l : Link) (s : State) : (resumeSending l s).pins = s.pins := by
  unfold resumeSending
  split <;> simp

theorem setLink_link_of_ne {l l' : Link} (ne : l' ≠ l) (r : LinkRecord) (s : State) :
    (setLink l r s).link l' = s.link l' := by
  match l, l' with
  | .a, .b => rfl
  | .b, .a => rfl
  | .a, .a => exact absurd rfl ne
  | .b, .b => exact absurd rfl ne

/-- The record of either link is as it was, or the next transmission has begun on it. -/
theorem resumeSending_link (l l' : Link) (s : State) :
    (resumeSending l s).link l' = s.link l' ∨ (resumeSending l s).link l' = startTransmission (s.link l') := by
  unfold resumeSending
  split
  · by_cases same : l' = l
    · exact .inr (by rw [same, setLink_link])
    · exact .inl (setLink_link_of_ne same _ s)
  · exact .inl rfl

@[simp] theorem resumeSending_receiver (l l' : Link) (s : State) :
    ((resumeSending l s).link l').receiver = (s.link l').receiver := by
  rcases resumeSending_link l l' s with link | link <;> simp [link]

@[simp] theorem resumeSending_breakArmed (l l' : Link) (s : State) :
    ((resumeSending l s).link l').breakArmed = (s.link l').breakArmed := by
  rcases resumeSending_link l l' s with link | link <;> simp [link]

@[simp] theorem resumeSending_due (l l' : Link) (s : State) :
    ((resumeSending l s).link l').due = (s.link l').due := by
  rcases resumeSending_link l l' s with link | link <;> simp [link]

/-! ### The conditions of standby (R204) -/

theorem mayStandBy_iff (s : State) : s.mayStandBy = true ↔ s.quiet = true ∧ s.store.commit = none := by
  simp [State.mayStandBy, State.storeIdle]

theorem mayStandBy_of_busy {s : State} (busy : s.quiet = false ∨ s.store.commit ≠ none) : s.mayStandBy = false := by
  rw [← Bool.not_eq_true, mayStandBy_iff]
  rintro ⟨quiet, idle⟩
  rcases busy with sounding | committing
  · exact absurd quiet (by simp [sounding])
  · exact committing idle

/-- The conditions of standby are judged outside the links. -/
@[simp] theorem setLink_mayStandBy (l : Link) (r : LinkRecord) (s : State) :
    (setLink l r s).mayStandBy = s.mayStandBy := by
  cases l <;> rfl

/-! ### The request STANDBY (R204) -/

/-- STANDBY is taken where the conditions hold, drops the claim, and standby follows its response (R204). -/
theorem exec_standby_ok {l : Link} {s : State} (taken : Takes s l (.standby l)) (claim : s.otherHolds l = false)
    (may : s.mayStandBy = true) :
    exec (.standby l) s = .next (respond l (.standby l) .ok [] (some .standby) (dropClaim s)) := by
  show Host.Outcome.next (request l (.standby l) (runStandby l) s) = _
  rw [request_taken taken]
  unfold runStandby
  rw [require_pass (by rw [claim]; rfl), require_pass may]

theorem exec_standby_badState {l : Link} {s : State} (taken : Takes s l (.standby l)) (claim : s.otherHolds l = false)
    (mayNot : s.mayStandBy = false) :
    exec (.standby l) s = .next (respond l (.standby l) .badState [] none s) := by
  refine exec_refused taken rfl ?_
  unfold runStandby
  rw [require_pass (by rw [claim]; rfl), require_fail mayNot]

/-! ### The wake (R205) -/

/-- The power block of a part that a wake event has met in standby: 8 ms of stabilisation have begun. -/
def Power.wakened (now : Nat) (p : Power) : Power := { p with state := .waking, wakeEnd := some (now + 8000) }

theorem wake_of_standby {s : State} (standby : s.power.state = .standby) :
    wake s = { s with power := s.power.wakened s.perf.now } :=
  if_pos standby

/-- A wake event changes the power block alone, and that in standby only. -/
theorem wake_eq (s : State) :
    wake s = { s with power := if s.power.state = .standby then s.power.wakened s.perf.now else s.power } := by
  unfold wake
  split <;> rfl

/-! ### The entry to standby (R204, R205) -/

/-- An entry to standby stops both receptions, and with the service line asserted the part wakes in the same step. -/
theorem enterStandby_of_may {s : State} (running : s.running = true) (may : s.mayStandBy = true) :
    enterStandby s = { s with
      power := if s.pins.serviceLine then s.power.wakened s.perf.now else { s.power with state := .standby }
      linkA := s.linkA.stopReceiving
      linkB := s.linkB.stopReceiving } := by
  unfold enterStandby
  rw [running, may, Bool.and_self, if_pos rfl]
  dsimp only
  split
  · exact wake_of_standby rfl
  · rfl

theorem enterStandby_of_not {s : State} (mayNot : s.mayStandBy = false) : enterStandby s = s := by
  simp [enterStandby, mayNot]

theorem exec_standbyEntry {l : Link} {s : State} (due : AfterAction.standby ∈ (s.link l).due) :
    exec (.standbyEntry l) s
      = .next (resumeSending l (enterStandby (setLink l ((s.link l).done .standby) s))) :=
  congrArg Host.Outcome.next (if_pos due)

theorem standbyEntry_enters {l : Link} {s : State} (running : s.power.state = .running)
    (due : AfterAction.standby ∈ (s.link l).due) (may : s.mayStandBy = true) :
    ∃ t, exec (.standbyEntry l) s = .next t
      ∧ t.power = (if s.pins.serviceLine then s.power.wakened s.perf.now else { s.power with state := .standby })
      ∧ t.linkA.receiver = .waitBreak ∧ t.linkB.receiver = .waitBreak
      ∧ (t.link l).due = (s.link l).due.erase .standby
      ∧ t.perf = s.perf ∧ t.map = s.map ∧ t.store = s.store ∧ t.claim = s.claim ∧ t.pins = s.pins := by
  refine ⟨_, exec_standbyEntry due, ?_⟩
  rw [enterStandby_of_may (by simp [State.running, running]) (by simpa using may)]
  refine ⟨by simp, resumeSending_receiver l .a _, resumeSending_receiver l .b _, ?_, by simp, by simp, by simp, by simp,
    by simp⟩
  rw [resumeSending_due]
  cases l <;> rfl

/-! ### The input pins (R163, R204, R205; log 17) -/

/-- The service line wakes the part from standby where it is asserted, and is otherwise kept for the requests that need it. -/
theorem exec_serviceLine (asserted : Bool) (s : State) :
    exec (.serviceLine asserted) s = .next { s with
      pins := { s.pins with serviceLine := asserted }
      power := if asserted = true ∧ s.power.state = .standby then s.power.wakened s.perf.now else s.power } := by
  show execServiceLine asserted s = _
  cases asserted with
  | false => rfl
  | true => simp [execServiceLine, wake_eq, setPins]

/-- A rise of the roll-present line wakes the part from standby. -/
theorem exec_rollPresentChange_true (s : State) :
    exec (.rollPresentChange true) s = .next { s with
      pins := { s.pins with rollPresent := true }
      power := if s.pins.rollPresent = false ∧ s.power.state = .standby then s.power.wakened s.perf.now else s.power } := by
  show execRollPresentChange true s = _
  cases present : s.pins.rollPresent with
  | false => simp [execRollPresentChange, present, wake_eq, setPins]
  | true => simp [execRollPresentChange, present, setPins]

theorem changePerf_of_stopped {f : Env → Performance → Performance} {s : State} (stopped : s.running = false) :
    changePerf f s = s := by
  simp [changePerf, stopped]

/-! ### The end of stabilisation (R205) -/

theorem exec_stabilisationEnd {s : State} {t : Nat} (waking : s.power.state = .waking)
    (wakeEnd : s.power.wakeEnd = some t) : exec .stabilisationEnd s = .next (endStabilisation t s) := by
  show execStabilisationEnd s = _
  simp [execStabilisationEnd, Power.wakingUntil, waking, wakeEnd]

/-- The part as it runs again, before it reads the monitor level and sends on. -/
def runningAgain (t : Nat) (s : State) : State :=
  { passTo t s with
    power := { s.power with state := .running, wakeEnd := none }
    linkA := s.linkA.afterWake
    linkB := s.linkB.afterWake }

@[simp] theorem runningAgain_link (t : Nat) (s : State) (l : Link) : (runningAgain t s).link l = (s.link l).afterWake := by
  cases l <;> rfl

theorem endStabilisation_eq (t : Nat) (s : State) :
    endStabilisation t s = resumeSending .b (resumeSending .a (readMonitor (runningAgain t s))) := rfl

theorem stabilisationEnd_runs {s : State} {t : Nat} (waking : s.power.state = .waking)
    (wakeEnd : s.power.wakeEnd = some t) (ahead : s.perf.now ≤ t) :
    ∃ u, exec .stabilisationEnd s = .next u
      ∧ u.power = { s.power with state := .running, wakeEnd := none }
      ∧ u.perf.now = t
      ∧ u.perf.instrument.monitor = s.pins.level
      ∧ (∀ l, (u.link l).receiver = .waitBreak ∧ (u.link l).breakArmed = (s.link l).lineHigh)
      ∧ u.map = s.map ∧ u.store = s.store ∧ u.claim = s.claim ∧ u.pins = s.pins := by
  refine ⟨_, exec_stabilisationEnd waking wakeEnd, ?_⟩
  have now : (runningAgain t s).perf.now = t := advanceTo_now ahead
  have level : (readMonitor (runningAgain t s)).perf.instrument.monitor = s.pins.level := readMonitor_monitor rfl
  rw [endStabilisation_eq]
  refine ⟨?_, by simpa using now, by simpa using level, fun l => ⟨?receiver, ?breakArmed⟩, ?_, ?_, ?_, ?_⟩
  case receiver | breakArmed => simp [LinkRecord.afterWake]
  all_goals simp [runningAgain]

/-! ### The statement (O32) -/

/-- Settles O32: the checks of STANDBY, the entry to standby and the wake from it, the inputs of a part that does not run, and the end
of stabilisation, which reads the monitor level. -/
theorem standbyAndWake : Obligations.StandbyAndWake := by
  intro l s woken
  refine ⟨fun taken claim => ⟨fun busy => ?badState, fun quiet idle => ?taken⟩, fun running due quiet idle => ?entry,
    fun due busy => ?noEntry, fun asserted => exec_serviceLine asserted s, exec_rollPresentChange_true s,
    fun stopped => ?rollPresent, fun low critical stopped => ?supply, fun t waking wakeEnd ahead => ?stabilised⟩
  case badState => exact exec_standby_badState taken claim (mayStandBy_of_busy busy)
  case taken => exact exec_standby_ok taken claim ((mayStandBy_iff s).2 ⟨quiet, idle⟩)
  case entry => exact standbyEntry_enters running due ((mayStandBy_iff s).2 ⟨quiet, idle⟩)
  case noEntry =>
    refine ⟨_, exec_standbyEntry due, ?_⟩
    rw [enterStandby_of_not ((setLink_mayStandBy ..).trans (mayStandBy_of_busy busy))]
    simp
  case rollPresent => exact congrArg Host.Outcome.next (changePerf_of_stopped (s := setPins _ s) stopped)
  case supply => exact congrArg Host.Outcome.next (readMonitor_of_stopped (s := setPins _ s) stopped)
  case stabilised =>
    obtain ⟨u, run, power, now, level, links, rest⟩ := stabilisationEnd_runs waking wakeEnd ahead
    obtain ⟨receiverA, armedA⟩ := links .a
    obtain ⟨receiverB, armedB⟩ := links .b
    exact ⟨u, run, power, now, level, receiverA, armedA, receiverB, armedB, rest⟩

end Sys2Proof.Machine
end

section
/-! PROOFS. What every request and every step keeps, and the commands that leave the working map and the profile store as they are. -/

namespace Sys2Proof.Machine

/-! ### A predicate that requests and steps keep (R193, R194) -/

section
variable {P : State → Prop}

/-- A check that fails leaves the state, and one that holds lets the next change it. -/
theorem require_keeps {test : State → Bool} {result : Result} {next : State → Reply × State} {s : State} (holds : P s)
    (passed : test s = true → P (next s).2) : P (require test result next s).2 := by
  cases judged : test s with
  | true => rw [require_pass judged]; exact passed judged
  | false => rw [require_fail judged]; exact holds

theorem requireValue_keeps {α : Type} {value : Option α} {next : α → State → Reply × State} {s : State} (holds : P s)
    (given : ∀ x, value = some x → P (next x s).2) : P (requireValue value next s).2 := by
  cases value with
  | none => exact holds
  | some x => exact given x rfl

/-- A predicate that no change of a link's record breaks is kept by a request whose execution keeps it: executed, offered or lost. -/
theorem request_keeps (links : ∀ l r s, P s → P (setLink l r s)) {l : Link} {c : Instr} {run : State → Reply × State}
    (runs : ∀ s, P s → P (run s).2) {s : State} (holds : P s) : P (request l c run s) := by
  have executed : ∀ t, P t → P (execute l c run t) := fun t held => links _ _ _ (runs t held)
  have offered : P (offerRequest l c s) := links _ _ _ holds
  unfold request
  split
  · split
    · exact executed s holds
    · split
      · exact executed _ offered
      · exact offered
  · exact holds

/-- A step is a command on the state but for what waits and the free counter, or it lets real time pass. -/
theorem step_cases {s s' : State} (stepped : step s = .next s') :
    (∃ c pending freeCount, exec c { s with pending := pending, freeCount := freeCount } = .next s')
      ∨ ∃ dt, s' = { s with perf := advance dt s.perf } := by
  have due : ∀ commands, takeDue commands s = .next s' →
      (∃ c pending freeCount, exec c { s with pending := pending, freeCount := freeCount } = .next s')
        ∨ ∃ dt, s' = { s with perf := advance dt s.perf } := by
    intro commands taken
    match commands with
    | [] => exact .inr ⟨_, (Host.Outcome.next.inj taken).symm⟩
    | [c] => exact .inl ⟨c, s.pending, s.freeCount, taken⟩
    | c :: d :: rest => exact .inl ⟨_, s.pending, s.freeCount + 1, taken⟩
  unfold step at stepped
  split at stepped
  · exact .inl ⟨_, _, s.freeCount, stepped⟩
  · exact due _ stepped

/-- A predicate that neither the waiting commands, nor the free counter, nor the passing of time breaks is kept by every step where
every command keeps it. -/
theorem step_keeps (waits : ∀ s pending freeCount, P s → P { s with pending := pending, freeCount := freeCount })
    (time : ∀ dt s, P s → P { s with perf := advance dt s.perf })
    (commands : ∀ c s s', P s → exec c s = .next s' → P s') {s s' : State} (holds : P s) (stepped : step s = .next s') :
    P s' := by
  rcases step_cases stepped with ⟨c, pending, freeCount, executed⟩ | ⟨dt, rfl⟩
  · exact commands c _ s' (waits s pending freeCount holds) executed
  · exact time dt s holds

end

/-! ### The commands that leave the working map and the store (R153, R164, R166, R167, R161, R206) -/

/-- The commands that may write the working map or the profile store: the requests of chapter 8, the two moments of a commit, and the
resets. -/
def writesMaps : Instr → Bool
  | .writeRecord _ _ _ _ => true
  | .loadProfile _ _ _ => true
  | .commitProfile _ _ _ => true
  | .setProtection _ _ _ => true
  | .eraseEnd => true
  | .commitCompletion => true
  | .powerOn => true
  | .supplyFail => true
  | .resetLine => true
  | .linkResetExecute _ => true
  | .resetLineDeassertion => true
  | _ => false

/-- The state holds this working map and this profile store. -/
def HasMaps (map : RegulationMap) (store : Store) (s : State) : Prop := s.map = map ∧ s.store = store

section
variable {map : RegulationMap} {store : Store} {s : State}

theorem ite_hasMaps {p : Prop} [Decidable p] {t u : State} (holds : HasMaps map store t) (fails : HasMaps map store u) :
    HasMaps map store (if p then t else u) := by
  split
  · exact holds
  · exact fails

theorem setLink_hasMaps (l : Link) (r : LinkRecord) (s : State) (holds : HasMaps map store s) :
    HasMaps map store (setLink l r s) := by
  unfold HasMaps
  rwa [setLink_map, setLink_store]

theorem accept_hasMaps (f : Env → Performance → Performance) (holds : HasMaps map store s) :
    HasMaps map store (accept f s).2 :=
  ⟨holds.1, holds.2⟩

theorem changePerf_hasMaps {f : Env → Performance → Performance} (holds : HasMaps map store s) :
    HasMaps map store (changePerf f s) := by
  unfold HasMaps
  rwa [changePerf_map, changePerf_store]

theorem readMonitor_hasMaps (holds : HasMaps map store s) : HasMaps map store (readMonitor s) := by
  unfold HasMaps
  rwa [readMonitor_map, readMonitor_store]

theorem resumeSending_hasMaps {l : Link} (holds : HasMaps map store s) : HasMaps map store (resumeSending l s) := by
  unfold HasMaps
  rwa [resumeSending_map, resumeSending_store]

theorem wake_hasMaps (holds : HasMaps map store s) : HasMaps map store (wake s) := by
  rw [wake_eq]
  exact holds

theorem enterStandby_hasMaps (holds : HasMaps map store s) : HasMaps map store (enterStandby s) :=
  ite_hasMaps (ite_hasMaps (wake_hasMaps holds) holds) holds

theorem endStabilisation_hasMaps {t : Nat} (holds : HasMaps map store s) : HasMaps map store (endStabilisation t s) :=
  resumeSending_hasMaps (resumeSending_hasMaps (readMonitor_hasMaps holds))

end

/-- A request whose execution leaves the map and the store leaves them. -/
theorem request_leavesMaps {l : Link} {c : Instr} {run : State → Reply × State} {s : State}
    (dispatched : exec c s = .next (request l c run s))
    (runs : ∀ map store t, HasMaps map store t → HasMaps map store (run t).2) :
    ∃ t, exec c s = .next t ∧ HasMaps s.map s.store t :=
  ⟨_, dispatched, request_keeps setLink_hasMaps (runs _ _) ⟨rfl, rfl⟩⟩

theorem execCharacter_leavesMaps (l : Link) (samples : BitVec 33) (s : State) :
    ∃ t, execCharacter l samples s = .next t ∧ HasMaps s.map s.store t := by
  refine ⟨_, rfl, ite_hasMaps ?_ ⟨rfl, rfl⟩⟩
  split
  · exact setLink_hasMaps _ _ _ ⟨rfl, rfl⟩
  · exact ⟨rfl, rfl⟩

theorem execBreak_leavesMaps (l : Link) (s : State) : ∃ t, execBreak l s = .next t ∧ HasMaps s.map s.store t := by
  have linked : ∀ r, HasMaps s.map s.store (setLink l r s) := fun r => setLink_hasMaps l r s ⟨rfl, rfl⟩
  refine ⟨_, rfl, ite_hasMaps ?_ (linked _)⟩
  split
  · exact linked _
  · exact wake_hasMaps (linked _)
  · exact linked _
  · exact ⟨rfl, rfl⟩

theorem execLinkDown_leavesMaps (l : Link) (s : State) :
    ∃ t, execLinkDown l s = .next t ∧ HasMaps s.map s.store t := by
  have down := setLink_hasMaps l (s.link l).goDown s ⟨rfl, rfl⟩
  have lapsed : HasMaps s.map s.store (if (setLink l (s.link l).goDown s).holds l
      then lapseClaim (setLink l (s.link l).goDown s) else setLink l (s.link l).goDown s) := ite_hasMaps down down
  exact ⟨_, rfl, ite_hasMaps (ite_hasMaps (enterStandby_hasMaps lapsed) lapsed) ⟨rfl, rfl⟩⟩

theorem execDiscardRecord_leavesMaps (l : Link) (s : State) :
    ∃ t, execDiscardRecord l s = .next t ∧ HasMaps s.map s.store t := by
  refine ⟨_, rfl, ite_hasMaps ?_ ⟨rfl, rfl⟩⟩
  split
  · exact setLink_hasMaps _ _ _ ⟨rfl, rfl⟩
  · exact ⟨rfl, rfl⟩

theorem execLinkRateChange_leavesMaps (l : Link) (s : State) :
    ∃ t, execLinkRateChange l s = .next t ∧ HasMaps s.map s.store t := by
  refine ⟨_, rfl, ?_⟩
  split
  · exact resumeSending_hasMaps (setLink_hasMaps _ _ _ ⟨rfl, rfl⟩)
  · exact ⟨rfl, rfl⟩

theorem execStabilisationEnd_leavesMaps (s : State) :
    ∃ t, execStabilisationEnd s = .next t ∧ HasMaps s.map s.store t := by
  unfold execStabilisationEnd
  split
  · exact ⟨_, rfl, endStabilisation_hasMaps ⟨rfl, rfl⟩⟩
  · exact ⟨_, rfl, rfl, rfl⟩

theorem execRollPresentChange_leavesMaps (asserted : Bool) (s : State) :
    ∃ t, execRollPresentChange asserted s = .next t ∧ HasMaps s.map s.store t := by
  cases asserted with
  | true => exact ⟨_, exec_rollPresentChange_true s, rfl, rfl⟩
  | false => exact ⟨_, rfl, changePerf_hasMaps ⟨rfl, rfl⟩⟩

theorem execScanImage_leavesMaps (samples : SensorLine) (s : State) :
    ∃ t, execScanImage samples s = .next t ∧ HasMaps s.map s.store t := by
  refine ⟨_, rfl, ?_⟩
  split
  · exact changePerf_hasMaps ⟨rfl, rfl⟩
  · exact ⟨rfl, rfl⟩
  · exact ⟨rfl, rfl⟩

theorem execLeaseEnd_leavesMaps (s : State) : ∃ t, execLeaseEnd s = .next t ∧ HasMaps s.map s.store t := by
  unfold execLeaseEnd
  split
  · exact ⟨_, rfl, ite_hasMaps ⟨rfl, rfl⟩ ⟨rfl, rfl⟩⟩
  · exact ⟨_, rfl, rfl, rfl⟩

/-- Every command but those of `writesMaps` leaves the working map and the profile store: a request whatever its checks answer, an event
of the performance by `changePerf`, an event of a link by `setLink`, and each other event by its own rule. -/
theorem exec_leavesMaps {c : Instr} (s : State) (leaves : writesMaps c = false) :
    ∃ t, exec c s = .next t ∧ HasMaps s.map s.store t := by
  have same : HasMaps s.map s.store s := ⟨rfl, rfl⟩
  cases c with
  | writeRecord | loadProfile | commitProfile | setProtection | eraseEnd | commitCompletion | powerOn | supplyFail | resetLine
  | linkResetExecute | resetLineDeassertion => simp [writesMaps] at leaves
  | readStatus | readQueue | unknownRequest | clearCounters =>
    exact request_leavesMaps rfl fun _ _ _ ⟨map, store⟩ => ⟨map, store⟩
  | yieldClaim | linkReset => exact request_leavesMaps rfl fun _ _ _ h => require_keeps h fun _ => h
  | claim | askYield | standby =>
    exact request_leavesMaps rfl fun _ _ _ h => require_keeps h fun _ => require_keeps h fun _ => h
  | free | pause | stop | streamClose =>
    exact request_leavesMaps rfl fun _ _ _ h => require_keeps h fun _ => require_keeps h fun _ => accept_hasMaps _ h
  | prepare | play =>
    exact request_leavesMaps rfl fun _ _ _ h =>
      require_keeps h fun _ => require_keeps h fun _ => require_keeps h fun _ => accept_hasMaps _ h
  | readCounters | readKey | setLinkRate =>
    exact request_leavesMaps rfl fun _ _ _ h => requireValue_keeps h fun _ _ => h
  | setNoticeMask =>
    exact request_leavesMaps rfl fun _ _ _ h => requireValue_keeps h fun _ _ => setLink_hasMaps _ _ _ h
  | setTrim | setAdmission =>
    exact request_leavesMaps rfl fun _ _ _ h => require_keeps h fun _ => requireValue_keeps h fun _ _ => h
  | renew =>
    exact request_leavesMaps rfl fun _ _ _ h =>
      require_keeps h fun _ => requireValue_keeps h fun _ _ => require_keeps h fun _ => h
  | selectSource | setTempo =>
    exact request_leavesMaps rfl fun _ _ _ h =>
      require_keeps h fun _ => require_keeps h fun _ => requireValue_keeps h fun _ _ => accept_hasMaps _ h
  | streamLines =>
    exact request_leavesMaps rfl fun _ _ _ h =>
      require_keeps h fun _ => require_keeps h fun _ => requireValue_keeps h fun _ _ => ⟨h.1, h.2⟩
  | liveStrike | liveRelease | livePedal =>
    exact request_leavesMaps rfl fun _ _ _ h => require_keeps h fun _ => requireValue_keeps h fun _ _ =>
      require_keeps h fun _ => require_keeps h fun _ => require_keeps h fun _ => h
  | lineTimerExpiry | threadingIntervalEnd | preRollIntervalEnd | lineIntervalEnd | reverseStep | endingLimit | entryLaunch
  | expressionStep | fireRequest | driveEnd | returnExpiry | dropMoment | goingDownTravelEnd | assistEnd | goingUpTravelEnd =>
    exact ⟨_, rfl, changePerf_hasMaps same⟩
  | scanImage samples => exact execScanImage_leavesMaps samples s
  | breakRearm => exact ⟨_, rfl, setLink_hasMaps _ _ _ same⟩
  | idleTruncation => exact ⟨_, rfl, ite_hasMaps (setLink_hasMaps _ _ _ same) same⟩
  | linkUp => exact ⟨_, rfl, ite_hasMaps same (setLink_hasMaps _ _ _ same)⟩
  | messageSent => exact ⟨_, rfl, resumeSending_hasMaps (setLink_hasMaps _ _ _ same)⟩
  | notice l => exact ⟨_, rfl, ite_hasMaps (setLink_hasMaps l _ (mapInstrument _ s) same) same⟩
  | character l samples => exact execCharacter_leavesMaps l samples s
  | breakDetected l => exact execBreak_leavesMaps l s
  | linkDown l => exact execLinkDown_leavesMaps l s
  | discardRecord l => exact execDiscardRecord_leavesMaps l s
  | linkRateChange l => exact execLinkRateChange_leavesMaps l s
  | standbyEntry =>
    exact ⟨_, rfl, ite_hasMaps (resumeSending_hasMaps (enterStandby_hasMaps (setLink_hasMaps _ _ _ same))) same⟩
  | monitorLevelChange => exact ⟨_, rfl, readMonitor_hasMaps same⟩
  | stabilisationEnd => exact execStabilisationEnd_leavesMaps s
  | serviceLine asserted => exact ⟨_, exec_serviceLine asserted s, same⟩
  | rollPresentChange asserted => exact execRollPresentChange_leavesMaps asserted s
  | leaseEnd => exact execLeaseEnd_leavesMaps s

end Sys2Proof.Machine
end

section
/-! PROOFS. What the operations on the working map and on the profile store do (R160 to R162, R165 to R169). -/

namespace Sys2Proof.Machine

/-! ### A change of the working map (R165) -/

theorem changeMap_map (new : RegulationMap) (supply : Bool) (s : State) : (changeMap new supply s).map = new := by
  unfold changeMap
  split <;> rfl

theorem changeMap_store (new : RegulationMap) (supply : Bool) (s : State) : (changeMap new supply s).store = s.store := by
  unfold changeMap
  split <;> rfl

/-! ### The tables of protection (R160, R161) -/

theorem committable_iff (p : Protection) (serviceLine : Bool) :
    p.committable serviceLine = true ↔ p = .open_ ∨ (p = .guarded ∧ serviceLine = true) := by
  cases p <;> simp [Protection.committable]

/-- The table of the changes of protection that are taken, with and without the service line (R161). -/
theorem protectionAllowed_iff (serviceLine : Bool) (old new : Protection) :
    protectionAllowed serviceLine old new = true
      ↔ old = new ∨ (old = .open_ ∧ (new ≠ .fixed ∨ serviceLine = true))
        ∨ (old = .guarded ∧ (new = .lockedUntilPower ∨ serviceLine = true))
        ∨ (old = .lockedUntilPower ∧ new = .fixed ∧ serviceLine = true) := by
  cases old <;> cases new <;> simp [protectionAllowed]

/-- A FIXED profile stays FIXED, whatever the service line. -/
theorem protectionAllowed_of_fixed {serviceLine : Bool} {new : Protection}
    (allowed : protectionAllowed serviceLine .fixed new = true) : new = .fixed := by
  cases new <;> simp [protectionAllowed] at allowed ⊢

/-! ### A commit in progress (R166 to R168) -/

theorem storeIdle_iff (s : State) : s.storeIdle = true ↔ s.store.commit = none := Option.isNone_iff_eq_none

theorem storeIdle_of_busy {s : State} (busy : s.store.commit ≠ none) : s.storeIdle = false := by
  rwa [← Bool.not_eq_true, storeIdle_iff]

theorem startProgramming_of_some {t : Store} {c : Commit} (committing : t.commit = some c) :
    startProgramming t = { t with commit := some { c with programming := true } } := by
  rw [startProgramming, committing]
  rfl

theorem completeCommit_of_some {t : Store} {c : Commit} (committing : t.commit = some c) :
    completeCommit t = { t with
      profiles := t.profiles.set c.profile { t.profiles[c.profile] with contents := c.snapshot, intact := true }
      bootChoice := if c.boot then c.profile else t.bootChoice
      commit := none } := by
  unfold completeCommit
  rw [committing]
  rfl

theorem cutCommit_of_none {t : Store} (idle : t.commit = none) (free : Nat) : t.cutCommit free = t := by
  unfold Store.cutCommit
  rw [idle]

theorem cutCommit_of_some {t : Store} {c : Commit} (committing : t.commit = some c) (free : Nat) :
    t.cutCommit free = { t with
      profiles := t.profiles.set c.profile
        ⟨Config.undefinedContents free, false, t.profiles[c.profile].protection⟩
      commit := none } := by
  unfold Store.cutCommit
  rw [committing]
  rfl

theorem cutCommit_commit (t : Store) (free : Nat) : (t.cutCommit free).commit = none := by
  cases committing : t.commit with
  | none => rw [cutCommit_of_none committing, committing]
  | some c => rw [cutCommit_of_some committing]

theorem cutCommit_bootChoice (t : Store) (free : Nat) : (t.cutCommit free).bootChoice = t.bootChoice := by
  cases committing : t.commit with
  | none => rw [cutCommit_of_none committing]
  | some c => rw [cutCommit_of_some committing]

/-! ### The store at a reset (R162, R168, R169) -/

/-- A profile after a reset that opens the locked ones. -/
def Profile.opened (p : Profile) : Profile := if p.protection = .lockedUntilPower then { p with protection := .open_ } else p

theorem opened_contents (p : Profile) : p.opened.contents = p.contents := by
  unfold Profile.opened
  split <;> rfl

theorem opened_intact (p : Profile) : p.opened.intact = p.intact := by
  unfold Profile.opened
  split <;> rfl

theorem opened_of_fixed {p : Profile} (fixed : p.protection = .fixed) : p.opened.protection = .fixed := by
  simp [Profile.opened, fixed]

theorem openLocked_eq (t : Store) : t.openLocked = { t with profiles := t.profiles.map Profile.opened } := by
  have profiles : (Vector.ofFn fun n : Fin 4 => t.profiles[n].opened) = t.profiles.map Profile.opened :=
    Vector.ext fun n inside => by simp
  rw [← profiles]
  rfl

/-- The start-up load takes the boot choice where it is INTACT, else profile 0, and writes no profile (R169). -/
theorem startUp_eq (t : Store) :
    t.startUp = { t with
      active := if t.profiles[t.bootChoice].intact then t.bootChoice else 0
      bootFallback := !t.profiles[t.bootChoice].intact } := by
  unfold Store.startUp
  cases t.profiles[t.bootChoice].intact <;> rfl

theorem startUp_active_intact {t : Store} (first : t.profiles[(0 : Fin 4)].intact = true) :
    t.startUp.profiles[t.startUp.active].intact = true := by
  unfold Store.startUp
  split
  · next chosen => exact chosen
  · exact first

theorem resetStore_opening {cause : ResetCause} (opens : cause = .powerOn ∨ cause = .supplyFail) (s : State) :
    resetStore cause s = (s.store.cutCommit s.freeCount).openLocked.startUp := by
  rcases opens with rfl | rfl <;> rfl

theorem resetStore_closed {cause : ResetCause} (keeps : cause = .resetLine ∨ cause = .linkReset) (s : State) :
    resetStore cause s = (s.store.cutCommit s.freeCount).startUp := by
  rcases keeps with rfl | rfl <;> rfl

end Sys2Proof.Machine
end

section
/-! PROOFS. The working map and the INTACT profiles stay in range, and profile 0 stays FIXED and INTACT (O56). -/

namespace Sys2Proof.Machine

/-! ### Records that are written are in range (R152, R153) -/

theorem valid_of_ifValid {α : Type} {valid : α → Bool} {read r : α} (given : ifValid valid read = some r) : valid r = true := by
  unfold ifValid at given
  split at given
  · next ranges => rwa [← Option.some.inj given]
  · exact absurd given (by simp)

theorem keyRecordOf_valid {contents : List Byte} {r : KeyRegulation} (read : keyRecordOf contents = some r) :
    r.valid = true := by
  unfold keyRecordOf at read
  split at read
  · exact absurd read (by simp)
  · exact valid_of_ifValid read

theorem pedalRecordOf_valid {contents : List Byte} {r : PedalRegulation} (read : pedalRecordOf contents = some r) :
    r.valid = true := valid_of_ifValid read

theorem expressionRecordOf_valid {contents : List Byte} {r : ExpressionRegulation}
    (read : expressionRecordOf contents = some r) : r.valid = true := valid_of_ifValid read

theorem trackerRecordOf_valid {contents : List Byte} {r : TrackerRegulation} (read : trackerRecordOf contents = some r) :
    r.valid = true := valid_of_ifValid read

theorem supplyRecordOf_valid {contents : List Byte} {r : SupplyRegulation} (read : supplyRecordOf contents = some r) :
    r.valid = true := valid_of_ifValid read

/-- A record that WRITE-RECORD reads is in range. -/
theorem recordOf_valid {selector index : Byte} {contents : List Byte} {w : RecordWrite}
    (read : recordOf selector index contents = some w) : w.valid = true := by
  unfold recordOf at read
  split at read
  case isTrue =>
    split at read
    · next record => obtain rfl := Option.some.inj read; exact keyRecordOf_valid record
    · exact absurd read (by simp)
  split at read
  case isTrue =>
    split at read
    · next record => obtain rfl := Option.some.inj read; exact pedalRecordOf_valid record
    · exact absurd read (by simp)
  split at read
  case isTrue => exact absurd read (by simp)
  split at read
  case isTrue =>
    obtain ⟨r, record, rfl⟩ := Option.map_eq_some_iff.1 read
    exact expressionRecordOf_valid record
  split at read
  case isTrue =>
    obtain ⟨r, record, rfl⟩ := Option.map_eq_some_iff.1 read
    exact trackerRecordOf_valid record
  split at read
  case isTrue =>
    obtain ⟨r, record, rfl⟩ := Option.map_eq_some_iff.1 read
    exact supplyRecordOf_valid record
  case isFalse => exact absurd read (by simp)

theorem map_valid_iff (map : RegulationMap) :
    map.valid = true ↔ (∀ k : Key, map.keys[k].valid = true) ∧ map.damper.valid = true ∧ map.shift.valid = true
      ∧ map.expression.valid = true ∧ map.tracker.valid = true ∧ map.supply.valid = true := by
  have keys : map.keys.toList.all KeyRegulation.valid = true ↔ ∀ k : Key, map.keys[k].valid = true := by
    rw [List.all_eq_true]
    refine ⟨fun all k => all _ (by simp), fun all r listed => ?_⟩
    obtain ⟨n, inside, rfl⟩ := List.mem_iff_getElem.1 listed
    rw [Vector.length_toList] at inside
    simpa using all ⟨n, inside⟩
  simp only [RegulationMap.valid, Bool.and_eq_true, keys, and_assoc]

/-- A record in range leaves a map in range. -/
theorem write_valid {map : RegulationMap} {w : RecordWrite} (inRange : map.valid = true) (record : w.valid = true) :
    (map.write w).valid = true := by
  rw [map_valid_iff] at inRange ⊢
  obtain ⟨keys, damper, shift, expression, tracker, supply⟩ := inRange
  cases w with
  | key k r =>
    refine ⟨fun j => ?_, damper, shift, expression, tracker, supply⟩
    by_cases same : j = k
    · subst same; simpa [RegulationMap.write, RecordWrite.valid] using record
    · have apart : k.val ≠ j.val := fun equal => same (Fin.ext equal.symm)
      simpa [RegulationMap.write, Vector.getElem_set_ne _ _ apart] using keys j
  | pedal d r =>
    cases d with
    | damper => exact ⟨keys, record, shift, expression, tracker, supply⟩
    | shift => exact ⟨keys, damper, record, expression, tracker, supply⟩
  | expression r => exact ⟨keys, damper, shift, record, tracker, supply⟩
  | tracker r => exact ⟨keys, damper, shift, expression, record, supply⟩
  | supply r => exact ⟨keys, damper, shift, expression, tracker, record⟩

/-! ### The invariant, block by block (R152, R159, R160) -/

/-- Every INTACT profile is in range, and profile 0 is FIXED and INTACT. -/
def profilesInRange (v : Vector Profile 4) : Prop :=
  (∀ n : Fin 4, v[n].intact = true → v[n].contents.valid = true)
    ∧ v[(0 : Fin 4)].intact = true ∧ v[(0 : Fin 4)].protection = .fixed

/-- A commit in progress has a snapshot in range, and is not made to profile 0. -/
def commitInRange (commit : Option Commit) : Prop := ∀ c, commit = some c → c.snapshot.valid = true ∧ c.profile ≠ 0

theorem mapsInRange_iff (s : State) :
    mapsInRange s ↔ s.map.valid = true ∧ profilesInRange s.store.profiles ∧ commitInRange s.store.commit := by
  unfold mapsInRange profilesInRange commitInRange
  simp only [and_assoc]

theorem commitInRange_none : commitInRange none := fun _ some => absurd some (by simp)

theorem commitInRange_some {c : Commit} : commitInRange (some c) ↔ c.snapshot.valid = true ∧ c.profile ≠ 0 :=
  ⟨fun all => all c rfl, fun given _ same => Option.some.inj same ▸ given⟩

theorem mapsInRange_of_hasMaps {s t : State} (holds : mapsInRange s) (same : HasMaps s.map s.store t) : mapsInRange t := by
  obtain ⟨map, store⟩ := same
  unfold mapsInRange
  rwa [map, store]

theorem profilesInRange_set {v : Vector Profile 4} (inRange : profilesInRange v) {n : Fin 4} {p : Profile}
    (contents : p.intact = true → p.contents.valid = true) (first : n = 0 → p.intact = true ∧ p.protection = .fixed) :
    profilesInRange (v.set n p) := by
  obtain ⟨every, intact, fixed⟩ := inRange
  have elsewhere : ∀ j : Fin 4, j ≠ n → (v.set n p)[j] = v[j] := fun j apart =>
    Vector.getElem_set_ne _ _ fun equal => apart (Fin.ext equal.symm)
  have there : (v.set n p)[n] = p := Vector.getElem_set_self _
  refine ⟨fun j => ?_, ?_⟩
  · by_cases same : j = n
    · rw [same, there]; exact contents
    · rw [elsewhere j same]; exact every j
  · by_cases same : 0 = n
    · subst same
      rw [there]; exact first rfl
    · rw [elsewhere 0 same]; exact ⟨intact, fixed⟩

/-! ### The requests of chapter 8 (R153, R161, R164, R166) -/

theorem changeMap_mapsInRange {new : RegulationMap} {supply : Bool} {s : State} (inRange : mapsInRange s)
    (valid : new.valid = true) : mapsInRange (changeMap new supply s) := by
  rw [mapsInRange_iff] at inRange ⊢
  rw [changeMap_map, changeMap_store]
  exact ⟨valid, inRange.2⟩

theorem writeRecord_mapsInRange (l : Link) (selector index : Byte) (contents : List Byte) (s : State)
    (inRange : mapsInRange s) : mapsInRange (runWriteRecord l selector index contents s).2 := by
  obtain ⟨map, _⟩ := (mapsInRange_iff s).1 inRange
  exact require_keeps inRange fun _ => require_keeps inRange fun _ => requireValue_keeps inRange fun _ read =>
    changeMap_mapsInRange inRange (write_valid map (recordOf_valid read))

/-- A profile that is loaded is INTACT, so the map that it gives is in range. -/
theorem loadProfile_mapsInRange (l : Link) (profile boot : Byte) (s : State) (inRange : mapsInRange s) :
    mapsInRange (runLoadProfile l profile boot s).2 := by
  obtain ⟨_, ⟨every, _⟩, _⟩ := (mapsInRange_iff s).1 inRange
  exact require_keeps inRange fun _ => requireValue_keeps inRange fun v _ => require_keeps inRange fun _ =>
    require_keeps inRange fun _ => require_keeps inRange fun intact =>
      changeMap_mapsInRange (s := onStore _ s) inRange (every v.1 intact)

/-- A profile that takes a commit is not FIXED, so it is not profile 0, and its snapshot is the working map. -/
theorem beginCommit_mapsInRange {n : Fin 4} {boot : Bool} {s : State} (inRange : mapsInRange s)
    (may : s.store.profiles[n].protection.committable s.pins.serviceLine = true) : mapsInRange (beginCommit n boot s) := by
  obtain ⟨map, profiles, _⟩ := (mapsInRange_iff s).1 inRange
  have notFirst : n ≠ 0 := by
    rintro rfl
    obtain ⟨_, _, fixed⟩ := profiles
    rw [fixed, committable_iff] at may
    simp at may
  refine (mapsInRange_iff _).2 ⟨map, profilesInRange_set profiles ?_ fun first => absurd first notFirst, ?_⟩
  · exact fun intact => absurd intact (by simp)
  · exact commitInRange_some.2 ⟨map, notFirst⟩

theorem commitProfile_mapsInRange (l : Link) (profile boot : Byte) (s : State) (inRange : mapsInRange s) :
    mapsInRange (runCommitProfile l profile boot s).2 :=
  require_keeps inRange fun _ => requireValue_keeps inRange fun _ _ => require_keeps inRange fun may =>
    require_keeps inRange fun _ => beginCommit_mapsInRange inRange may

/-- Profile 0, which is FIXED, takes no change of its protection but to FIXED. -/
theorem setProtection_mapsInRange (l : Link) (profile protection : Byte) (s : State) (inRange : mapsInRange s) :
    mapsInRange (runSetProtection l profile protection s).2 := by
  refine require_keeps inRange fun _ => requireValue_keeps inRange fun ⟨n, new⟩ _ => require_keeps inRange fun _ =>
    require_keeps inRange fun allowed => ?_
  obtain ⟨map, profiles, commit⟩ := (mapsInRange_iff s).1 inRange
  obtain ⟨every, intact, fixed⟩ := profiles
  refine (mapsInRange_iff _).2 ⟨map, profilesInRange_set ⟨every, intact, fixed⟩ (every n) fun first => ?_, commit⟩
  subst first
  rw [fixed] at allowed
  exact ⟨intact, protectionAllowed_of_fixed allowed⟩

/-! ### A commit in progress (R167, R168) -/

theorem startProgramming_inRange {s : State} (inRange : mapsInRange s) : mapsInRange (onStore startProgramming s) := by
  obtain ⟨map, profiles, commit⟩ := (mapsInRange_iff s).1 inRange
  refine (mapsInRange_iff _).2 ⟨map, profiles, ?_⟩
  show commitInRange (s.store.commit.map _)
  cases committing : s.store.commit with
  | none => exact commitInRange_none
  | some c => exact commitInRange_some.2 (commit c committing)

/-- The snapshot is in range, and so is the profile that it completes. -/
theorem completeCommit_inRange {s : State} (inRange : mapsInRange s) : mapsInRange (onStore completeCommit s) := by
  obtain ⟨map, profiles, commit⟩ := (mapsInRange_iff s).1 inRange
  rw [mapsInRange_iff, onStore_store]
  cases committing : s.store.commit with
  | none =>
    have same : completeCommit s.store = s.store := by unfold completeCommit; rw [committing]
    rw [same]
    exact ⟨map, profiles, commit⟩
  | some c =>
    obtain ⟨snapshot, notFirst⟩ := commit c committing
    rw [completeCommit_of_some committing]
    exact ⟨map, profilesInRange_set profiles (fun _ => snapshot) fun first => absurd first notFirst, commitInRange_none⟩

theorem eraseEnd_mapsInRange {s : State} (inRange : mapsInRange s) :
    ∃ t, exec .eraseEnd s = .next t ∧ mapsInRange t := by
  show ∃ t, execEraseEnd s = .next t ∧ mapsInRange t
  unfold execEraseEnd
  split
  · exact ⟨_, rfl, startProgramming_inRange inRange⟩
  · exact ⟨_, rfl, inRange⟩

theorem commitCompletion_mapsInRange {s : State} (inRange : mapsInRange s) :
    ∃ t, exec .commitCompletion s = .next t ∧ mapsInRange t := by
  show ∃ t, execCommitCompletion s = .next t ∧ mapsInRange t
  unfold execCommitCompletion
  split
  · exact ⟨_, rfl, completeCommit_inRange inRange⟩
  · exact ⟨_, rfl, inRange⟩

/-! ### The resets (R162, R168, R169, R206, R207) -/

theorem startUp_mapsInRange {t : Store} (profiles : profilesInRange t.profiles) (commit : commitInRange t.commit)
    (power : Power) (s : State) : mapsInRange (startUp t.startUp power s) := by
  have keptProfiles : profilesInRange t.startUp.profiles := by rw [startUp_eq]; exact profiles
  have keptCommit : commitInRange t.startUp.commit := by rw [startUp_eq]; exact commit
  obtain ⟨_, first, _⟩ := profiles
  exact (mapsInRange_iff _).2 ⟨keptProfiles.1 _ (startUp_active_intact first), keptProfiles, keptCommit⟩

theorem cutCommit_profilesInRange {t : Store} (profiles : profilesInRange t.profiles) (commit : commitInRange t.commit)
    (free : Nat) : profilesInRange (t.cutCommit free).profiles := by
  cases committing : t.commit with
  | none => rw [cutCommit_of_none committing]; exact profiles
  | some c =>
    rw [cutCommit_of_some committing]
    exact profilesInRange_set profiles (fun intact => absurd intact (by simp))
      fun first => absurd first (commit c committing).2

theorem openLocked_profilesInRange {t : Store} (profiles : profilesInRange t.profiles) :
    profilesInRange t.openLocked.profiles := by
  obtain ⟨every, intact, fixed⟩ := profiles
  have opened : ∀ n : Fin 4, t.openLocked.profiles[n] = t.profiles[n].opened := fun n => by simp [openLocked_eq]
  refine ⟨fun n => ?_, ?_, ?_⟩
  · rw [opened, opened_intact, opened_contents]; exact every n
  · rw [opened, opened_intact]; exact intact
  · rw [opened]; exact opened_of_fixed fixed

theorem resetPart_mapsInRange {s : State} (inRange : mapsInRange s) (cause : ResetCause) :
    mapsInRange (resetPart cause s) := by
  obtain ⟨_, profiles, commit⟩ := (mapsInRange_iff s).1 inRange
  have cut := cutCommit_profilesInRange profiles commit s.freeCount
  have idle : commitInRange (s.store.cutCommit s.freeCount).commit := by
    rw [cutCommit_commit]
    exact commitInRange_none
  have started : ∀ power, mapsInRange (startUp (resetStore cause s) power s) := by
    intro power
    cases cause with
    | powerOn | supplyFail =>
      rw [resetStore_opening (by simp)]
      exact startUp_mapsInRange (openLocked_profilesInRange cut) idle power s
    | resetLine | linkReset =>
      rw [resetStore_closed (by simp)]
      exact startUp_mapsInRange cut idle power s
  exact started ⟨if s.pins.resetLine then .held else .running, none, cause, s.power.state.fromStandby⟩

/-! ### The statement (O56) -/

theorem exec_mapsInRange (c : Instr) (s s' : State) (inRange : mapsInRange s) (executed : exec c s = .next s') :
    mapsInRange s' := by
  have links : ∀ l r t, mapsInRange t → mapsInRange (setLink l r t) := fun l r t held =>
    mapsInRange_of_hasMaps held (setLink_hasMaps l r t ⟨rfl, rfl⟩)
  have answers : ∃ t, exec c s = .next t ∧ mapsInRange t := by
    cases writes : writesMaps c with
    | false =>
      obtain ⟨t, run, same⟩ := exec_leavesMaps s writes
      exact ⟨t, run, mapsInRange_of_hasMaps inRange same⟩
    | true =>
      cases c with
      | writeRecord => exact ⟨_, rfl, request_keeps links (writeRecord_mapsInRange _ _ _ _) inRange⟩
      | loadProfile => exact ⟨_, rfl, request_keeps links (loadProfile_mapsInRange _ _ _) inRange⟩
      | commitProfile => exact ⟨_, rfl, request_keeps links (commitProfile_mapsInRange _ _ _) inRange⟩
      | setProtection => exact ⟨_, rfl, request_keeps links (setProtection_mapsInRange _ _ _) inRange⟩
      | eraseEnd => exact eraseEnd_mapsInRange inRange
      | commitCompletion => exact commitCompletion_mapsInRange inRange
      | powerOn | supplyFail => exact ⟨_, rfl, resetPart_mapsInRange inRange _⟩
      | linkResetExecute =>
        refine ⟨_, rfl, ?_⟩
        split
        · exact resetPart_mapsInRange inRange _
        · exact inRange
      | resetLine =>
        refine ⟨_, rfl, ?_⟩
        dsimp only
        split
        · exact inRange
        · exact resetPart_mapsInRange (s := setPins _ s) inRange _
      | resetLineDeassertion =>
        obtain ⟨_, profiles, commit⟩ := (mapsInRange_iff s).1 inRange
        refine ⟨_, rfl, ?_⟩
        dsimp only
        split
        · exact startUp_mapsInRange profiles commit _ _
        · exact inRange
      | _ => simp [writesMaps] at writes
  obtain ⟨t, run, held⟩ := answers
  exact Host.Outcome.next.inj (run.symm.trans executed) ▸ held

/-- Settles O56: a command leaves the map and the store, or is one of those that write them, and each of those writes only what is in
range. -/
theorem mapsStayInRange : Obligations.MapsStayInRange := fun _ _ =>
  step_keeps (fun _ _ _ held => held) (fun _ _ held => held) exec_mapsInRange

end Sys2Proof.Machine
end

section
/-! PROOFS. COMMIT-PROFILE and the commit in real time (O29), and SET-PROTECTION (O30). -/

namespace Sys2Proof.Machine

/-! ### COMMIT-PROFILE and SET-PROTECTION at their execution (R160, R161, R166) -/

/-- A request that is taken is answered as its execution says, in the state that its execution leaves. -/
theorem exec_replied {c : Instr} {l : Link} {s s' : State} {run : State → Reply × State} {reply : Reply}
    (taken : Takes s l c) (dispatched : exec c s = .next (request l c run s)) (ran : run s = (reply, s')) :
    exec c s = .next (respond l c reply.result reply.data reply.after s') := by
  rw [dispatched, request_taken taken, ran]

theorem claim_passes {l : Link} {s : State} (claim : s.otherHolds l = false) : (!s.otherHolds l) = true := by
  rw [claim]
  rfl

section
variable {l : Link} {s : State}

theorem runCommitProfile_judges (claim : s.otherHolds l = false) {profile boot : Byte} {n : Fin 4} {flag : Bool}
    (values : profileAndFlag profile boot = some (n, flag)) :
    runCommitProfile l profile boot s
      = require (fun s => s.store.profiles[n].protection.committable s.pins.serviceLine) .protected_
          (require (fun s => s.storeIdle) .storeBusy fun s => (⟨.accepted, [], none⟩, beginCommit n flag s)) s := by
  unfold runCommitProfile
  rw [require_pass (claim_passes claim), values, requireValue_some]

theorem runCommitProfile_outOfRange (claim : s.otherHolds l = false) {profile boot : Byte}
    (out : profileAndFlag profile boot = none) : runCommitProfile l profile boot s = (refuse .outOfRange, s) := by
  unfold runCommitProfile
  rw [require_pass (claim_passes claim), out, requireValue_none]

end

/-! ### A commit in real time (R167) -/

theorem exec_eraseEnd {s : State} {c : Commit} (committing : s.store.commit = some c) (erasing : c.programming = false) :
    exec .eraseEnd s = .next { s with
      perf := advanceTo (c.acceptedAt + 60000) s.perf
      store := { s.store with commit := some { c with programming := true } } } := by
  have moment : s.store.eraseEnd = some (c.acceptedAt + 60000) := by simp [Store.eraseEnd, committing, erasing]
  show execEraseEnd s = _
  simp [execEraseEnd, moment, onStore, startProgramming_of_some committing]

theorem exec_commitCompletion {s : State} {c : Commit} (committing : s.store.commit = some c)
    (programming : c.programming = true) :
    exec .commitCompletion s = .next { s with
      perf := { advanceTo (c.acceptedAt + 180000) s.perf with
        instrument := raiseBoth .profileDone s.perf.instrument }
      store := { s.store with
        profiles := s.store.profiles.set c.profile
          { s.store.profiles[c.profile] with contents := c.snapshot, intact := true }
        bootChoice := if c.boot then c.profile else s.store.bootChoice
        commit := none } } := by
  have moment : s.store.completion = some (c.acceptedAt + 180000) := by simp [Store.completion, committing, programming]
  show execCommitCompletion s = _
  simp [execCommitCompletion, moment, onStore, completeCommit_of_some committing, advanceTo]

/-- Settles O29: the checks of COMMIT-PROFILE in their turn, and the two moments of a commit. -/
theorem commitsBeginAndRun : Obligations.CommitsBeginAndRun := by
  refine ⟨?request, ?moments⟩
  case request =>
    intro l profile boot s c taken claim
    refine ⟨fun out => exec_refused taken rfl (runCommitProfile_outOfRange claim (profileAndFlag_of_out out)),
      fun n number flag => ?_⟩
    intro protection free
    have judges := runCommitProfile_judges claim (profileAndFlag_of_in number flag)
    have may := committable_iff protection s.pins.serviceLine
    refine ⟨fun notFree => exec_refused taken rfl ?_, fun isFree busy => exec_refused taken rfl ?_,
      fun isFree idle => exec_replied (reply := ⟨.accepted, [], none⟩) taken rfl ?_⟩
    · rw [judges, require_fail (Bool.not_eq_true _ ▸ mt may.1 notFree)]
    · rw [judges, require_pass (may.2 isFree), require_fail (storeIdle_of_busy busy)]
    · rw [judges, require_pass (may.2 isFree), require_pass ((storeIdle_iff s).2 idle)]
      rfl
  case moments =>
    intro c s committing
    refine ⟨fun erasing ahead => ⟨exec_eraseEnd committing erasing, advanceTo_now ahead⟩, fun programming ahead =>
      ⟨_, exec_commitCompletion committing programming, advanceTo_now ahead, rfl, ?_, ?_⟩⟩
    · exact advance_queue _ _
    · exact advance_state _ _

/-! ### SET-PROTECTION (R161) -/

theorem profileOf_number {profile : Byte} {n : Fin 4} (number : profile.toNat = n.val) : profileOf profile = some n := by
  unfold profileOf
  rw [dif_pos (number ▸ n.isLt)]
  exact congrArg some (Fin.ext number)

theorem protectionOf_of_out {code : Byte} (out : 4 ≤ code.toNat) : protectionOf code = none := by
  have apart : ∀ b : Byte, b.toNat < 4 → code ≠ b := fun b small same => absurd (same ▸ out) (Nat.not_le.2 small)
  simp [protectionOf, apart]

theorem profileAndProtection_of_out {profile code : Byte} (out : 4 ≤ profile.toNat ∨ 4 ≤ code.toNat) :
    profileAndProtection profile code = none := by
  unfold profileAndProtection
  rcases out with noProfile | noCode
  · rw [profileOf, dif_neg (Nat.not_lt.2 noProfile)]
  · rw [protectionOf_of_out noCode]
    cases profileOf profile <;> rfl

theorem profileAndProtection_of_in {profile code : Byte} {n : Fin 4} {new : Protection} (number : profile.toNat = n.val)
    (named : protectionOf code = some new) : profileAndProtection profile code = some (n, new) := by
  unfold profileAndProtection
  rw [profileOf_number number, named]

section
variable {l : Link} {s : State} {profile code : Byte}

theorem runSetProtection_notHolder (held : s.otherHolds l = true) :
    runSetProtection l profile code s = (refuse .notHolder, s) := by
  unfold runSetProtection
  rw [require_fail (by rw [held]; rfl)]

theorem runSetProtection_outOfRange (claim : s.otherHolds l = false) (out : profileAndProtection profile code = none) :
    runSetProtection l profile code s = (refuse .outOfRange, s) := by
  unfold runSetProtection
  rw [require_pass (claim_passes claim), out, requireValue_none]

theorem runSetProtection_judges (claim : s.otherHolds l = false) {n : Fin 4} {new : Protection}
    (values : profileAndProtection profile code = some (n, new)) :
    runSetProtection l profile code s
      = require (fun s => s.storeIdle) .storeBusy
          (require (fun s => protectionAllowed s.pins.serviceLine s.store.profiles[n].protection new) .protected_ fun s =>
            (okReply, onStore (fun t => t.onProfile n fun p => { p with protection := new }) s)) s := by
  unfold runSetProtection
  rw [require_pass (claim_passes claim), values, requireValue_some]

end

/-- Settles O30: each check of SET-PROTECTION answers in its turn, and the table of changes is the model's. -/
theorem protectionChanges : Obligations.ProtectionChanges := by
  intro l profile code s c refused taken
  refine ⟨fun held => exec_refused taken rfl (runSetProtection_notHolder held),
    fun claim out => exec_refused taken rfl (runSetProtection_outOfRange claim (profileAndProtection_of_out out)),
    fun n new claim number codes => ?_⟩
  intro old allowed
  have named : protectionOf code = some new := by
    rcases codes with ⟨rfl, rfl⟩ | ⟨rfl, rfl⟩ | ⟨rfl, rfl⟩ | ⟨rfl, rfl⟩ <;> rfl
  have judges := runSetProtection_judges claim (profileAndProtection_of_in number named)
  have table := protectionAllowed_iff s.pins.serviceLine old new
  refine ⟨fun busy => exec_refused taken rfl ?_, fun idle may => exec_answered taken rfl ?_,
    fun idle mayNot => exec_refused taken rfl ?_⟩
  · rw [judges, require_fail (storeIdle_of_busy busy)]
  · rw [judges, require_pass ((storeIdle_iff s).2 idle), require_pass (table.2 may)]
    rfl
  · rw [judges, require_pass ((storeIdle_iff s).2 idle), require_fail (Bool.not_eq_true _ ▸ mt table.1 mayNot)]

end Sys2Proof.Machine
end

section
/-! PROOFS. The resets (O33). -/

namespace Sys2Proof.Machine

/-! ### A part that starts up (R162, R168, R169, R207) -/

/-- What the statement of the resets calls a part that has started from the state `s`: with these profiles, and with this power block. -/
def StartedFrom (s : State) (power : Power) (profiles : Vector Profile 4) (t : State) : Prop :=
  let active : Fin 4 := if profiles[s.store.bootChoice].intact then s.store.bootChoice else 0
  t.map = profiles[active].contents
    ∧ t.store = ⟨profiles, s.store.bootChoice, active, !profiles[s.store.bootChoice].intact, none⟩
    ∧ t.perf = Performance.reset profiles[active].contents.expression.restLevel s.pins.level
    ∧ t.claim = ⟨none, .both⟩
    ∧ t.linkA = LinkRecord.reset s.linkA.lineHigh ∧ t.linkB = LinkRecord.reset s.linkB.lineHigh
    ∧ t.power = power
    ∧ t.pending = s.pending

/-- A start-up over a store with no commit in progress, whose boot choice is the one that was kept. -/
theorem startUp_startedFrom {s : State} {store : Store} (idle : store.commit = none)
    (kept : store.bootChoice = s.store.bootChoice) (power : Power) :
    StartedFrom s power store.profiles (startUp store.startUp power s) := by
  obtain ⟨profiles, bootChoice, active, bootFallback, commit⟩ := store
  obtain rfl : commit = none := idle
  obtain rfl : bootChoice = s.store.bootChoice := kept
  rw [startUp_eq]
  exact ⟨rfl, rfl, rfl, rfl, rfl, rfl, rfl, rfl⟩

theorem fromStandby_eq (p : PowerState) : p.fromStandby = (decide (p = .standby) || decide (p = .waking)) := by
  cases p <;> rfl

/-- The power block after a reset of a kind, the reset line being asserted or not (R206; log 19). -/
def powerAfter (cause : ResetCause) (resetLine : Bool) (s : State) : Power :=
  ⟨if resetLine then .held else .running, none, cause, decide (s.power.state = .standby) || decide (s.power.state = .waking)⟩

theorem resetPart_eq (cause : ResetCause) (s : State) :
    resetPart cause s = { startUp (resetStore cause s) (powerAfter cause s.pins.resetLine s) s with
      freeCount := s.freeCount + (if s.store.commit.isSome then 1 else 0) } := by
  rw [resetPart, fromStandby_eq]
  rfl

/-- POWER-ON and SUPPLY-FAIL open the locked profiles. -/
theorem resetPart_opening {cause : ResetCause} (opens : cause = .powerOn ∨ cause = .supplyFail) (s : State) :
    StartedFrom s (powerAfter cause s.pins.resetLine s) ((s.store.cutCommit s.freeCount).profiles.map Profile.opened)
      (resetPart cause s) := by
  rw [resetPart_eq, resetStore_opening opens, openLocked_eq]
  exact startUp_startedFrom
    (store := { s.store.cutCommit s.freeCount with
      profiles := (s.store.cutCommit s.freeCount).profiles.map Profile.opened })
    (cutCommit_commit ..) (cutCommit_bootChoice ..) _

/-- The reset line and a LINK-RESET leave the protection of every profile. -/
theorem resetPart_closed {cause : ResetCause} (keeps : cause = .resetLine ∨ cause = .linkReset) (s : State) :
    StartedFrom s (powerAfter cause s.pins.resetLine s) (s.store.cutCommit s.freeCount).profiles (resetPart cause s) := by
  rw [resetPart_eq, resetStore_closed keeps]
  exact startUp_startedFrom (cutCommit_commit ..) (cutCommit_bootChoice ..) _

/-- Settles O33: each kind of reset is a start-up over the store that it leaves. -/
theorem resets : Obligations.Resets := by
  intro s opened started fromStandby state
  refine ⟨⟨(s.store.cutCommit s.freeCount).profiles, fun idle => ?idle, fun c committing => ?committing, ?powerOn, ?supplyFail,
    fun l due => ?linkReset, fun runs => ?resetLine⟩, fun held => ⟨?again, fun idle => ?starts⟩, fun runs => ?deasserted⟩
  case idle => rw [cutCommit_of_none idle]
  case committing => exact ⟨_, by rw [cutCommit_of_some committing]⟩
  case powerOn => exact ⟨_, rfl, resetPart_opening (.inl rfl) s, rfl⟩
  case supplyFail => exact ⟨_, rfl, resetPart_opening (.inr rfl) s, rfl⟩
  case linkReset => exact ⟨_, congrArg Host.Outcome.next (if_pos due), resetPart_closed (.inr rfl) s, rfl⟩
  case resetLine =>
    exact ⟨_, congrArg Host.Outcome.next (if_neg runs), resetPart_closed (.inl rfl) (setPins _ s), rfl⟩
  case again => exact congrArg Host.Outcome.next (if_pos held)
  case starts =>
    exact ⟨_, congrArg Host.Outcome.next (if_pos held), startUp_startedFrom (s := setPins _ s) idle rfl _, rfl⟩
  case deasserted => exact congrArg Host.Outcome.next (if_neg runs)

end Sys2Proof.Machine
end

section
/-! PROOFS. The lapse of the claim (R25, R174, R175), and a link that goes DOWN or comes UP (O38). -/

namespace Sys2Proof.Machine

/-! ### A notice pending on both links stays pending (R110, R133, R196) -/

/-- The notice kind is pending on both links. -/
def PendingBoth (n : NoticeKind) (i : Instrument) : Prop :=
  i.noticesA &&& noticeBit n = noticeBit n ∧ i.noticesB &&& noticeBit n = noticeBit n

/-- Bits that are set stay set as others are set. -/
theorem or_and_of_set {bits kind : Notices} (set : bits &&& kind = kind) (others : Notices) :
    (bits ||| others) &&& kind = kind := by
  ext j inRange
  have bit : (bits &&& kind)[j] = kind[j] := by rw [set]
  simp only [BitVec.getElem_and, Bool.and_eq_right_iff_imp] at bit
  simpa using fun isKind => Or.inl (bit isKind)

theorem raiseBoth_pendingBoth (n : NoticeKind) (i : Instrument) : PendingBoth n (raiseBoth n i) := by
  have set : ∀ bits : Notices, (bits ||| noticeBit n) &&& noticeBit n = noticeBit n := fun bits => by
    rw [BitVec.or_comm]
    exact or_and_of_set BitVec.and_self bits
  exact ⟨set _, set _⟩

section
variable {n : NoticeKind} {i : Instrument}

theorem PendingBoth.raiseBoth (pending : PendingBoth n i) (other : NoticeKind) : PendingBoth n (raiseBoth other i) :=
  ⟨or_and_of_set pending.1 _, or_and_of_set pending.2 _⟩

@[simp] theorem setKey_pendingBoth (k : Key) (r : KeyRecord) : PendingBoth n (setKey k r i) ↔ PendingBoth n i := Iff.rfl

@[simp] theorem setPedal_pendingBoth (d : PedalName) (r : PedalRecord) :
    PendingBoth n (setPedal d r i) ↔ PendingBoth n i := by
  cases d <;> rfl

@[simp] theorem returnUnits_pendingBoth (units : Nat) : PendingBoth n (returnUnits units i) ↔ PendingBoth n i := Iff.rfl

@[simp] theorem withdraw_pendingBoth (q : Requester) : PendingBoth n (withdraw q i) ↔ PendingBoth n i := Iff.rfl

@[simp] theorem countDiscarded_pendingBoth (strikes : Nat) : PendingBoth n (countDiscarded strikes i) ↔ PendingBoth n i :=
  Iff.rfl

theorem shedKey_pendingBoth (m : Moment) (k : Key) : PendingBoth n (shedKey m k i) ↔ PendingBoth n i := Iff.rfl

theorem grantKey_pendingBoth (m : Moment) (k : Key) (requestMoment : Nat) (pending : PendingBoth n i) :
    PendingBoth n (grantKey m k requestMoment i) := by
  unfold grantKey
  dsimp only
  split
  · exact pending
  · split
    · exact PendingBoth.raiseBoth (i := { setKey k _ { i with unitsInUse := _, fired := _ } with late := _ }) pending .late
    · exact pending

@[simp] theorem enterDown_pendingBoth (m : Moment) (d : PedalName) : PendingBoth n (enterDown m d i) ↔ PendingBoth n i := by
  cases d <;> rfl

@[simp] theorem grantPedal_pendingBoth (m : Moment) (d : PedalName) :
    PendingBoth n (grantPedal m d i) ↔ PendingBoth n i := by
  unfold grantPedal
  dsimp only
  split <;> cases d <;> rfl

/-- A grant pass raises notices and takes none away. -/
theorem pass_pendingBoth (m : Moment) (pending : PendingBoth n i) : PendingBoth n (pass m i) := by
  refine pass_induct (P := PendingBoth n) (fun _ k held _ _ => (shedKey_pendingBoth m k).2 held) (fun i e rest held _ _ => ?_)
    pending
  unfold grant
  cases e.requester with
  | key k => exact grantKey_pendingBoth (i := { i with waitList := rest }) m k e.requestMoment held
  | pedal d => exact (grantPedal_pendingBoth (i := { i with waitList := rest }) m d).2 held

@[simp] theorem askIfDueOnly_pendingBoth (m : Moment) (k : Key) :
    PendingBoth n (askIfDueOnly m k i) ↔ PendingBoth n i := by
  unfold askIfDueOnly
  split
  · split <;> rfl
  · rfl

@[simp] theorem emptiedOnly_pendingBoth (m : Moment) (k : Key) :
    PendingBoth n (emptiedOnly m k i) ↔ PendingBoth n i := by
  simp only [emptiedOnly]
  split <;> rfl

@[simp] theorem loseArmedOnly_pendingBoth (m : Moment) (k : Key) :
    PendingBoth n (loseArmedOnly m k i) ↔ PendingBoth n i := by
  simp only [loseArmedOnly]
  split <;> simp

theorem pauseKeyOnly_pendingBoth (m : Moment) (k : Key) : PendingBoth n (pauseKeyOnly m k i) ↔ PendingBoth n i := by
  rw [pauseKeyOnly_eq]
  split
  · exact loseArmedOnly_pendingBoth ..
  · split
    · exact emptiedOnly_pendingBoth ..
    · rfl

theorem cutShed_pendingBoth (pending : PendingBoth n i) : PendingBoth n (cutShed i) := by
  refine forKeys_induct (P := PendingBoth n) (fun k i held => ?_) pending
  dsimp only
  split
  · exact PendingBoth.raiseBoth (i := { setKey k _ i with cut := _ }) held .cut
  · exact held

theorem goUpOnly_pendingBoth (m : Moment) (d : PedalName) (withAssist : Bool) (pending : PendingBoth n i) :
    PendingBoth n (goUpOnly m d withAssist i) := by
  cases d with
  | damper => exact cutShed_pendingBoth (i := { setPedal .damper _ (returnUnits _ i) with damperDown := false }) pending
  | shift => exact pending

theorem upRequestOnly_pendingBoth (m : Moment) (d : PedalName) (pending : PendingBoth n i) :
    PendingBoth n (upRequestOnly m d i) := by
  simp only [upRequestOnly]
  split
  · simpa using pending
  · split
    · exact goUpOnly_pendingBoth m d true pending
    · exact goUpOnly_pendingBoth m d true pending
    · exact pending
    · exact pending

theorem leavePedalOnly_pendingBoth (m : Moment) (d : PedalName) (o : Origin) (pending : PendingBoth n i) :
    PendingBoth n (leavePedalOnly m d o i) := by
  simp only [leavePedalOnly]
  split
  · split
    · exact upRequestOnly_pendingBoth m d ((setPedal_pendingBoth d _).2 pending)
    · exact (setPedal_pendingBoth d _).2 pending
  · exact pending

/-- The pause effects raise notices and take none away. -/
theorem pauseInstrument_pendingBoth (m : Moment) (pending : PendingBoth n i) : PendingBoth n (pauseInstrument m i) := by
  have keys : PendingBoth n (pauseKeysOnly m i) :=
    forKeys_induct (P := PendingBoth n) (fun k _ held => (pauseKeyOnly_pendingBoth m k).2 held) pending
  exact pass_pendingBoth m (leavePedalOnly_pendingBoth m .shift .roll (leavePedalOnly_pendingBoth m .damper .roll keys))

end

/-! ### The session's action on the lapse of the claim (R25) -/

theorem lapseSession_of_inPlay {p : Performance} (inPlay : p.session.state.inPlay = true) (e : Env) :
    lapseSession e p = pauseSession e .lapse p :=
  if_pos inPlay

theorem lapseSession_of_free {p : Performance} (free : p.session.state = .free) (e : Env) :
    lapseSession e p = stopSession e p := by
  simp [lapseSession, free, SessionState.inPlay]

theorem lapseSession_of_other {p : Performance} (notInPlay : p.session.state.inPlay = false)
    (notFree : p.session.state ≠ .free) (e : Env) : lapseSession e p = p := by
  simp [lapseSession, notInPlay, notFree]

theorem pauseSession_instrument (e : Env) (cause : PauseCause) (p : Performance) :
    (pauseSession e cause p).instrument = pauseInstrument (p.moment e) p.instrument := by
  simp [pauseSession]

theorem stopSession_instrument (e : Env) (p : Performance) :
    (stopSession e p).instrument
      = pauseInstrument (p.moment e) (countDiscarded (p.queue.discard fun _ => true).1 p.instrument) := by
  simp [stopSession, Performance.moment]

/-- The stop of FREE ends in IDLE with nothing queued (R20). -/
theorem stopSession_of_free {p : Performance} (free : p.session.state = .free) (e : Env) :
    (stopSession e p).session.state = .idle ∧ (stopSession e p).queue.entries = [] := by
  refine ⟨?_, ?_⟩
  · simp [stopSession, afterStop, clearSession, free]
  · simp [stopSession, Queue.discard]

/-- No session is ENDING after the lapse of the claim. -/
theorem lapseSession_notCompleting (e : Env) (p : Performance) : notCompleting (lapseSession e p) := by
  intro ending
  cases inPlay : p.session.state.inPlay with
  | true =>
    rw [lapseSession_of_inPlay inPlay] at ending
    exact SessionState.noConfusion ending
  | false =>
    by_cases free : p.session.state = .free
    · rw [lapseSession_of_free free, (stopSession_of_free free e).1] at ending
      exact SessionState.noConfusion ending
    · rw [lapseSession_of_other inPlay free] at ending
      rw [ending] at inPlay
      exact Bool.noConfusion inPlay

theorem lapseSession_pendingBoth {n : NoticeKind} {p : Performance} (e : Env) (pending : PendingBoth n p.instrument) :
    PendingBoth n (lapseSession e p).instrument := by
  unfold lapseSession
  split
  · rw [pauseSession_instrument]
    exact pauseInstrument_pendingBoth _ pending
  · split
    · rw [stopSession_instrument]
      exact pauseInstrument_pendingBoth _ ((countDiscarded_pendingBoth _).2 pending)
    · exact pending

/-! ### The lapse of the claim (R174, R175) -/

/-- The performance with CLAIM-LAPSED pending on both links. -/
def withLapseNoticed (p : Performance) : Performance := { p with instrument := raiseBoth .claimLapsed p.instrument }

/-- The performance as the claim lapses: CLAIM-LAPSED on both links, the session's action, and what follows every change. -/
def lapsed (e : Env) (p : Performance) : Performance :=
  settle e (lapseSession e (withLapseNoticed p))

theorem lapseClaim_eq (s : State) :
    lapseClaim s = { s with perf := lapsed s.env s.perf, claim := { s.claim with held := none } } := rfl

/-- After the session's action no roll completes: there may be a forward step, and no more. -/
theorem lapsed_eq (e : Env) (p : Performance) :
    let q := lapseSession e (withLapseNoticed p)
    lapsed e p = onSession (forwardStep q.now) q :=
  settle_of_left (lapseSession_notCompleting e _)

theorem forwardStep_pauseCause (now : Nat) (x : Session) : (forwardStep now x).pauseCause = x.pauseCause := by
  unfold forwardStep
  split <;> rfl

theorem lapsed_pendingBoth (e : Env) (p : Performance) : PendingBoth .claimLapsed (lapsed e p).instrument := by
  rw [lapsed_eq]
  exact lapseSession_pendingBoth e (raiseBoth_pendingBoth .claimLapsed p.instrument)

theorem lapsed_of_inPlay {p : Performance} (inPlay : p.session.state.inPlay = true) (e : Env) :
    (lapsed e p).session.state = .paused ∧ (lapsed e p).session.pauseCause = .lapse := by
  rw [lapsed_eq, lapseSession_of_inPlay (p := withLapseNoticed p) inPlay]
  exact ⟨(forwardStep_keeps _ _).1, forwardStep_pauseCause _ _⟩

theorem lapsed_of_free {p : Performance} (free : p.session.state = .free) (e : Env) :
    (lapsed e p).session.state = .idle ∧ (lapsed e p).queue.entries = [] := by
  rw [lapsed_eq, lapseSession_of_free (p := withLapseNoticed p) free]
  obtain ⟨idle, empty⟩ := stopSession_of_free (p := withLapseNoticed p) free e
  exact ⟨(forwardStep_keeps _ _).1.trans idle, empty⟩

/-! ### A link that goes DOWN or comes UP (R190) -/

@[simp] theorem setLink_env (l : Link) (r : LinkRecord) (s : State) : (setLink l r s).env = s.env := by
  cases l <;> rfl

@[simp] theorem setLink_holds (l l' : Link) (r : LinkRecord) (s : State) : (setLink l r s).holds l' = s.holds l' := by
  cases l <;> rfl

/-- The state once a link has gone DOWN and its claim has lapsed (R175, R190). -/
def withLinkLost (l : Link) (s : State) : State :=
  if s.holds l then lapseClaim (setLink l (s.link l).goDown s) else setLink l (s.link l).goDown s

theorem withLinkLost_of_other {l : Link} {s : State} (holds : s.holds l = false) :
    withLinkLost l s = setLink l (s.link l).goDown s :=
  if_neg (by simp [holds])

theorem withLinkLost_of_holder {l : Link} {s : State} (holds : s.holds l = true) :
    withLinkLost l s = { setLink l (s.link l).goDown s with
      perf := lapsed s.env s.perf, claim := { s.claim with held := none } } := by
  unfold withLinkLost
  rw [if_pos holds, lapseClaim_eq, setLink_env, setLink_perf, setLink_claim]

theorem exec_linkDown {l : Link} {s : State} (up : (s.link l).up = true) :
    exec (.linkDown l) s = .next (if AfterAction.standby ∈ (s.link l).afterActions then enterStandby (withLinkLost l s)
      else withLinkLost l s) := by
  have holds := setLink_holds l l (s.link l).goDown s
  show execLinkDown l s = _
  unfold execLinkDown withLinkLost
  rw [if_pos up]
  simp only [holds]

theorem enterStandby_of_stopped {s : State} (stopped : s.running = false) : enterStandby s = s := by
  simp [enterStandby, stopped]

theorem running_iff (s : State) : s.running = true ↔ s.power.state = .running := decide_eq_true_iff

/-- A link that goes DOWN takes the part to standby only where a cut response called for it and the conditions hold (R204). -/
theorem exec_linkDown_stays {l : Link} {s : State} (up : (s.link l).up = true)
    (stays : ¬ (AfterAction.standby ∈ (s.link l).afterActions ∧ (withLinkLost l s).power.state = .running
      ∧ (withLinkLost l s).quiet = true ∧ (withLinkLost l s).store.commit = none)) :
    exec (.linkDown l) s = .next (withLinkLost l s) := by
  rw [exec_linkDown up]
  split
  · next called =>
    congr 1
    cases running : (withLinkLost l s).running with
    | false => exact enterStandby_of_stopped running
    | true =>
      refine enterStandby_of_not ?_
      rw [← Bool.not_eq_true, mayStandBy_iff]
      exact fun may => stays ⟨called, (running_iff _).1 running, may⟩
  · rfl

/-- Settles O38: the record and the claim of a link that goes DOWN, the standby that a cut response called for, and a link that comes
UP. -/
theorem linkDownUp : Obligations.LinkDownUp := by
  intro l s r follows down gone enters
  refine ⟨fun up => ⟨withLinkLost l s, ⟨fun other => ?other, fun holder => ?holder⟩, fun stays => ?stays, fun entry => ?enters⟩,
    fun isDown => ?notUp, fun isDown running => ?comesUp, fun up => ?alreadyUp⟩
  case other => exact withLinkLost_of_other other
  case holder =>
    obtain ⟨pendingA, pendingB⟩ := lapsed_pendingBoth s.env s.perf
    exact ⟨_, withLinkLost_of_holder holder, pendingA, pendingB, fun inPlay => lapsed_of_inPlay inPlay _,
      fun free => lapsed_of_free free _⟩
  case stays => exact exec_linkDown_stays up stays
  case enters =>
    obtain ⟨called, running, may⟩ := entry
    refine (exec_linkDown up).trans ?_
    rw [if_pos (show AfterAction.standby ∈ (s.link l).afterActions from called),
      enterStandby_of_may ((running_iff _).2 running) ((mayStandBy_iff _).2 may)]
    rfl
  case notUp => exact congrArg Host.Outcome.next (if_neg (Bool.eq_false_iff.1 isDown))
  case comesUp => exact congrArg Host.Outcome.next (if_neg (by simpa [running] using isDown))
  case alreadyUp => exact congrArg Host.Outcome.next (if_pos (by simpa using Or.inl up))

end Sys2Proof.Machine
end

section
/-! PROOFS. The requests on the claim: CLAIM (O8), RENEW (O9), YIELD and ASK-YIELD (O10). -/

namespace Sys2Proof.Machine

/-! ### Who holds the claim (R171) -/

section
variable {l : Link} {s : State}

theorem holds_of_held {h : HeldClaim} (held : s.claim.held = some h) : s.holds l = decide (h.link = l) := by
  simp [State.holds, held]

theorem otherHolds_of_held {h : HeldClaim} (held : s.claim.held = some h) : s.otherHolds l = decide (h.link ≠ l) := by
  simp [State.otherHolds, held]

theorem holds_of_free (free : s.claim.held = none) : s.holds l = false := by
  simp [State.holds, free]

theorem otherHolds_of_free (free : s.claim.held = none) : s.otherHolds l = false := by
  simp [State.otherHolds, free]

theorem holds_of_otherHolds (other : s.otherHolds l = true) : s.holds l = false := by
  cases held : s.claim.held with
  | none => exact holds_of_free held
  | some h => simpa [holds_of_held held, otherHolds_of_held held] using other

end

/-! ### CLAIM (R172) -/

/-- Settles O8: the two checks of CLAIM by who holds the claim. -/
theorem claimOutcomes : Obligations.ClaimOutcomes := by
  intro l s taken
  refine ⟨fun free => exec_answered taken rfl ?granted, fun h held holder => exec_refused taken rfl ?already,
    fun h held other => exec_refused taken rfl ?heldByOther⟩ <;> unfold runClaim
  case granted =>
    rw [require_pass (by rw [holds_of_free free]; rfl), require_pass (by rw [otherHolds_of_free free]; rfl)]
    rfl
  case already => exact require_fail (by simp [holds_of_held held, holder]) _ _
  case heldByOther =>
    rw [require_pass (by simp [holds_of_held held, other])]
    exact require_fail (by simp [otherHolds_of_held held, other]) _ _

/-! ### RENEW (R173) -/

theorem phaseOf_of_out {phase : Byte} (out : phase ≠ 1 ∧ phase ≠ 2) : phaseOf phase = none := by
  unfold phaseOf
  rw [if_neg out.1, if_neg out.2]

theorem expectsSecond_of_held {s : State} {h : HeldClaim} (held : s.claim.held = some h) :
    s.expectsSecond = h.secondPhase := by
  simp [State.expectsSecond, held]

/-- RENEW from the holder with a phase judges it by the expected phase. -/
theorem runRenew_judges {l : Link} {s : State} {phase : Byte} {second : Bool} {h : HeldClaim}
    (held : s.claim.held = some h) (holder : h.link = l) (named : phaseOf phase = some second) :
    runRenew l phase s = if h.secondPhase = second then (okReply, grantLease l (!second) s) else (refuse .wrongPhase, s) := by
  unfold runRenew
  rw [require_pass (by simp [holds_of_held held, holder]), named, requireValue_some, require, expectsSecond_of_held held]
  simp only [decide_eq_true_eq]

/-- Settles O9: the three checks of RENEW in their order, and the new lease. -/
theorem renewOutcomes : Obligations.RenewOutcomes := by
  intro l phase s taken
  refine ⟨fun other => exec_refused taken rfl (require_fail other _ _), fun h held holder =>
    ⟨fun out => exec_refused taken rfl ?outOfRange, fun wrong => exec_refused taken rfl ?wrongPhase,
      fun right => exec_answered taken rfl ?renewed⟩⟩
  case outOfRange =>
    unfold runRenew
    rw [require_pass (by simp [holds_of_held held, holder]), phaseOf_of_out out, requireValue_none]
  case wrongPhase =>
    rcases wrong with ⟨rfl, expected⟩ | ⟨rfl, expected⟩
    · exact (runRenew_judges held holder rfl).trans (if_neg (by simp [expected]))
    · exact (runRenew_judges held holder rfl).trans (if_neg (by simp [expected]))
  case renewed =>
    rcases right with ⟨rfl, expected⟩ | ⟨rfl, expected⟩
    · exact ((runRenew_judges held holder rfl).trans (if_pos expected)).trans (by rw [expected]; rfl)
    · exact ((runRenew_judges held holder rfl).trans (if_pos expected)).trans (by rw [expected]; rfl)

/-! ### YIELD, STANDBY and ASK-YIELD (R176, R177, R204) -/

/-- Settles O10: YIELD by its one check, STANDBY where its conditions hold, ASK-YIELD by who holds the claim. -/
theorem yieldOutcomes : Obligations.YieldOutcomes := by
  intro l s
  refine ⟨fun taken => ⟨fun holder => exec_answered taken rfl (require_pass holder _ _),
      fun other => exec_refused taken rfl (require_fail other _ _)⟩,
    fun taken claim quiet idle => exec_standby_ok taken claim ((mayStandBy_iff s).2 ⟨quiet, idle⟩),
    fun taken => ⟨fun other => exec_answered taken rfl ?asked, fun holder => exec_refused taken rfl ?already,
      fun free => exec_refused taken rfl ?nobody⟩⟩ <;> unfold runAskYield
  case asked =>
    rw [require_pass (by rw [holds_of_otherHolds other]; rfl), require_pass other]
    rfl
  case already => exact require_fail (by rw [holder]; rfl) _ _
  case nobody =>
    rw [require_pass (by rw [holds_of_free free]; rfl)]
    exact require_fail (otherHolds_of_free free) _ _

end Sys2Proof.Machine
end

section
/-! PROOFS. The checks of live requests (O22), and LIVE-RELEASE and LIVE-PEDAL (O25). -/

namespace Sys2Proof.Machine

/-! ### The value checks of live requests (R182, R200) -/

theorem keyOf_isSome (key : Byte) : (keyOf key).isSome = inRange 1 88 key.toNat := by
  unfold keyOf inRange
  by_cases low : 1 ≤ key.toNat <;> by_cases high : key.toNat ≤ 88 <;> simp [low, high]

theorem pedalOf_isSome (pedal : Byte) : (pedalOf pedal).isSome = decide (pedal.toNat < 2) := by
  revert pedal
  decide

theorem releaseOptionsValid_eq (options : Byte) :
    releaseOptionsValid options = (decide (options = 0) || decide (options = 2)) := by
  revert options
  decide

theorem isSome_ite_none {α : Type} (test : Bool) (value : Option α) :
    (if test then value else none).isSome = (value.isSome && test) := by
  cases test <;> simp

theorem liveStrikeFields_isSome (l : Link) (key options velocity : Byte) (offset holdLength : BitVec 16) :
    (liveStrikeFields key options velocity holdLength).isSome
      = liveFieldsValid (.liveStrike l key options velocity offset holdLength) := by
  unfold liveStrikeFields
  rw [isSome_ite_none, Option.isSome_map, keyOf_isSome, ← Bool.and_assoc]
  rfl

theorem liveReleaseKey_isSome (l : Link) (key options : Byte) (offset : BitVec 16) :
    (liveReleaseKey key options).isSome = liveFieldsValid (.liveRelease l key options offset) := by
  unfold liveReleaseKey
  rw [isSome_ite_none, keyOf_isSome, releaseOptionsValid_eq]
  rfl

theorem livePedalName_isSome (l : Link) (pedal options : Byte) (offset : BitVec 16) :
    (livePedalName pedal options).isSome = liveFieldsValid (.livePedal l pedal options offset) := by
  unfold livePedalName
  rw [isSome_ite_none, pedalOf_isSome]
  rfl

/-! ### The checks of a live request in their order (R182) -/

/-- The checks of a live request: the admission, the values, the supply, the clock and the queue. -/
def liveChecks (l : Link) (c : Instr) (next : State → Reply × State) : State → Reply × State :=
  require (fun s => s.admits l) .notAdmitted <|
  require (fun _ => liveFieldsValid c) .outOfRange <|
  requireLive (decide (0 < livePlaces c)) (livePlaces c) next

/-- A value check followed by the other checks of a live request is the chain of its checks. -/
theorem requireValue_liveChecks {α : Type} {l : Link} {c : Instr} {value : Option α} {rest : α → State → Reply × State}
    (valid : value.isSome = liveFieldsValid c)
    (checked : ∀ x, value = some x → ∃ next, rest x = requireLive (decide (0 < livePlaces c)) (livePlaces c) next) :
    ∃ next, require (fun s => s.admits l) .notAdmitted (requireValue value rest) = liveChecks l c next := by
  unfold liveChecks
  rw [← valid]
  cases value with
  | none => exact ⟨fun s => (okReply, s), rfl⟩
  | some x =>
    obtain ⟨next, eq⟩ := checked x rfl
    exact ⟨next, by rw [← eq]; rfl⟩

theorem actLive_checks (l : Link) (at_ : Bool) (offset : BitVec 16) (a : Action) (now : Moment → Instrument → Instrument) :
    ∃ next, actLive l at_ offset a now = requireLive (decide (0 < at_.toNat)) at_.toNat next := by
  cases at_ with
  | false => exact ⟨_, rfl⟩
  | true => exact ⟨_, rfl⟩

theorem liveStrikeFields_timing {key options velocity : Byte} {holdLength : BitVec 16} {x : LiveStrikeFields}
    (named : liveStrikeFields key options velocity holdLength = some x) :
    x.at_ = options.getLsbD 1 ∧ x.hold.isSome = options.getLsbD 2 := by
  unfold liveStrikeFields at named
  split at named
  · obtain ⟨k, -, rfl⟩ := Option.map_eq_some_iff.1 named
    exact ⟨rfl, isSome_ite_none (optionHold options) (some holdLength)⟩
  · exact absurd named (by simp)

/-- A live strike needs the clock where it needs places. -/
theorem liveStrikeFields_places (l : Link) {key options velocity : Byte} (offset : BitVec 16) {holdLength : BitVec 16}
    {x : LiveStrikeFields} (named : liveStrikeFields key options velocity holdLength = some x) :
    x.places = livePlaces (.liveStrike l key options velocity offset holdLength)
      ∧ (x.at_ || x.hold.isSome) = decide (0 < x.places) := by
  obtain ⟨timing, hold⟩ := liveStrikeFields_timing named
  unfold LiveStrikeFields.places
  refine ⟨by rw [timing, hold]; rfl, ?_⟩
  cases x.at_ <;> cases x.hold.isSome <;> rfl

/-- Every live request goes through the slots of its link and makes its checks in one order. -/
theorem exec_live {c : Instr} {l : Link} (link : requestLink c = some l) (live : isLive c = true) :
    ∃ next, ∀ s, exec c s = .next (request l c (liveChecks l c next) s) := by
  have checks : ∀ {run : State → Reply × State} {c' : Instr}, (∀ s, exec c' s = .next (request l c' run s)) →
      (∃ next, run = liveChecks l c' next) → ∃ next, ∀ s, exec c' s = .next (request l c' (liveChecks l c' next) s) := by
    rintro run c' dispatched ⟨next, rfl⟩
    exact ⟨next, dispatched⟩
  cases c <;> simp only [isLive, Bool.false_eq_true] at live
  case liveStrike l' key options velocity offset holdLength =>
    obtain rfl := Option.some.inj link
    refine checks (fun _ => rfl) (requireValue_liveChecks (liveStrikeFields_isSome ..) fun x named => ?_)
    obtain ⟨places, needs⟩ := liveStrikeFields_places l' offset named
    rw [← places, ← needs]
    exact ⟨_, rfl⟩
  case liveRelease key options offset =>
    obtain rfl := Option.some.inj link
    exact checks (fun _ => rfl) (requireValue_liveChecks (liveReleaseKey_isSome ..) fun _ _ => actLive_checks ..)
  case livePedal pedal options offset =>
    obtain rfl := Option.some.inj link
    exact checks (fun _ => rfl) (requireValue_liveChecks (livePedalName_isSome ..) fun _ _ => actLive_checks ..)

section
variable {s : State} {needsClock : Bool} {places : Nat} {next : State → Reply × State}

theorem requireLive_critical (critical : s.perf.instrument.monitor = .critical) :
    requireLive needsClock places next s = (refuse .supplyCritical, s) :=
  require_fail (by simp [State.supplied, critical]) _ _

theorem requireLive_clockStopped (supplied : s.perf.instrument.monitor ≠ .critical) (needs : needsClock = true)
    (stands : s.perf.session.state.clockRuns = false) :
    requireLive needsClock places next s = (refuse .clockStopped, s) := by
  unfold requireLive
  rw [require_pass (decide_eq_true supplied)]
  exact require_fail (by simp [needs, State.clockRuns, stands]) _ _

theorem requireLive_queueFull (supplied : s.perf.instrument.monitor ≠ .critical)
    (runs : s.perf.session.state.clockRuns = true) (full : 512 < s.perf.queue.entries.length + places) :
    requireLive needsClock places next s = (refuse .queueFull, s) := by
  unfold requireLive
  rw [require_pass (decide_eq_true supplied), require_pass (by simp [State.clockRuns, runs])]
  exact require_fail (decide_eq_false (Nat.not_le.2 full)) _ _

end

theorem liveChecks_judges {l : Link} {c : Instr} {s : State} (admitted : s.admits l = true)
    (valid : liveFieldsValid c = true) (next : State → Reply × State) :
    liveChecks l c next s = requireLive (decide (0 < livePlaces c)) (livePlaces c) next s := by
  unfold liveChecks
  rw [require_pass admitted, require_pass valid]

/-- Settles O22: each check of a live request answers in its turn. -/
theorem liveRefusals : Obligations.LiveRefusals := by
  intro c l s link live taken
  obtain ⟨next, dispatched⟩ := exec_live link live
  refine ⟨fun notAdmitted => exec_refused taken (dispatched s) (require_fail notAdmitted _ _), fun admitted out => ?outOfRange,
    fun admitted valid => ?judged⟩
  case outOfRange =>
    refine exec_refused taken (dispatched s) ?_
    unfold liveChecks
    rw [require_pass admitted]
    exact require_fail out _ _
  case judged =>
    have refused : ∀ {result}, requireLive (decide (0 < livePlaces c)) (livePlaces c) next s = (refuse result, s) →
        exec c s = .next (respond l c result [] none s) := fun failed =>
      exec_refused taken (dispatched s) ((liveChecks_judges admitted valid next).trans failed)
    exact ⟨fun critical => refused (requireLive_critical critical), fun supplied needs =>
      ⟨fun stands => refused (requireLive_clockStopped supplied (decide_eq_true needs) stands),
        fun runs full => refused (requireLive_queueFull supplied runs full)⟩⟩

/-! ### LIVE-RELEASE and LIVE-PEDAL that are accepted (R184, R185) -/

section
variable {l : Link} {s : State} {offset : BitVec 16} {a : Action} {now : Moment → Instrument → Instrument}

/-- The action of a link entered in the queue at PT plus an offset, and what follows. -/
def liveEntered (l : Link) (a : Action) (offset : BitVec 16) (s : State) : State :=
  settled s (insertEntry s.env
    (liveEntry s l a (min 4294967295 (s.perf.session.pt + offset.toNat)) s.perf.queue) s.perf)

/-- The action of a link done at once, and what follows. -/
def liveDone (now : Moment → Instrument → Instrument) (s : State) : State :=
  settled s { s.perf with instrument := now s.moment s.perf.instrument }

theorem actLive_at (supplied : s.perf.instrument.monitor ≠ .critical) (runs : s.perf.session.state.clockRuns = true)
    (room : s.perf.queue.entries.length + 1 ≤ 512) :
    actLive l true offset a now s = (okWith (leBytes 2 s.perf.queue.nextSequence.toNat), liveEntered l a offset s) :=
  requireLive_pass supplied (fun _ => runs) room _

theorem actLive_now (supplied : s.perf.instrument.monitor ≠ .critical) (room : s.perf.queue.entries.length + 0 ≤ 512) :
    actLive l false offset a now s = (okWith [], liveDone now s) :=
  requireLive_pass supplied (fun needs => Bool.noConfusion needs) room _

end

/-- A live request whose execution is an action AT or NOW: it answers with the sequence number, or with no data. -/
theorem exec_actLive {l : Link} {c : Instr} {s : State} {run : State → Reply × State} {at_ : Bool} {offset : BitVec 16}
    {a : Action} {now : Moment → Instrument → Instrument} (taken : LiveTaken s l c)
    (dispatched : exec c s = .next (request l c run s)) (places : livePlaces c = at_.toNat)
    (ran : s.admits l = true → run s = actLive l at_ offset a now s) :
    exec c s = .next (respond l c .ok (if at_ then leBytes 2 s.perf.queue.nextSequence.toNat else []) none
      (if at_ then liveEntered l a offset s else liveDone now s)) := by
  obtain ⟨takes, admitted, -, supplied, clock, room⟩ := taken
  rw [places] at clock room
  refine exec_answered takes dispatched ((ran admitted).trans ?_)
  cases at_ with
  | true => exact actLive_at supplied (clock Nat.one_pos) room
  | false => exact actLive_now supplied room

theorem liveReleaseKey_of_valid {l : Link} {key options : Byte} {offset : BitVec 16} {k : Key}
    (valid : liveFieldsValid (.liveRelease l key options offset) = true) (number : key.toNat = k.val + 1) :
    liveReleaseKey key options = some k := by
  simp only [liveFieldsValid, ← releaseOptionsValid_eq, Bool.and_eq_true] at valid
  obtain ⟨-, unused⟩ := valid
  unfold liveReleaseKey
  rw [if_pos unused, keyOf_number number]

theorem livePedalName_of_valid {l : Link} {pedal options : Byte} {offset : BitVec 16} {d : PedalName}
    (valid : liveFieldsValid (.livePedal l pedal options offset) = true)
    (code : (pedal = 0 ∧ d = .damper) ∨ (pedal = 1 ∧ d = .shift)) : livePedalName pedal options = some d := by
  simp only [liveFieldsValid, Bool.and_eq_true] at valid
  obtain ⟨-, unused⟩ := valid
  unfold livePedalName
  rw [if_pos (show pedalOptionsValid options = true from unused)]
  rcases code with ⟨rfl, rfl⟩ | ⟨rfl, rfl⟩ <;> rfl

/-- An accepted LIVE-RELEASE is an action AT or NOW by bit 1 of its options (R184). -/
theorem exec_liveRelease_taken {l : Link} {key options : Byte} {offset : BitVec 16} {k : Key} {s : State}
    (taken : LiveTaken s l (.liveRelease l key options offset)) (number : key.toNat = k.val + 1) :
    exec (.liveRelease l key options offset) s = .next (respond l (.liveRelease l key options offset) .ok
      (if optionAt options then leBytes 2 s.perf.queue.nextSequence.toNat else []) none
      (if optionAt options then liveEntered l (.release k) offset s else liveDone (release k (originOf l)) s)) := by
  have ⟨_, _, valid, _⟩ := taken
  refine exec_actLive taken rfl rfl fun admitted => ?_
  unfold runLiveRelease
  rw [require_pass admitted, liveReleaseKey_of_valid valid number, requireValue_some]

/-- An accepted LIVE-PEDAL is a down or an up by bit 0 of its options, AT or NOW by bit 1 (R185). -/
theorem exec_livePedal_taken {l : Link} {pedal options : Byte} {offset : BitVec 16} {d : PedalName} {s : State}
    (taken : LiveTaken s l (.livePedal l pedal options offset))
    (code : (pedal = 0 ∧ d = .damper) ∨ (pedal = 1 ∧ d = .shift)) :
    exec (.livePedal l pedal options offset) s = .next (respond l (.livePedal l pedal options offset) .ok
      (if optionAt options then leBytes 2 s.perf.queue.nextSequence.toNat else []) none
      (if optionAt options then liveEntered l (pedalAction d (optionUp options)) offset s
        else liveDone (pedalNow l d (optionUp options)) s)) := by
  have ⟨_, _, valid, _⟩ := taken
  refine exec_actLive taken rfl rfl fun admitted => ?_
  unfold runLivePedal
  rw [require_pass admitted, livePedalName_of_valid valid code, requireValue_some]

/-- Settles O25: each option character of the two requests names its action and its timing. -/
theorem liveReleasesAndPedals : Obligations.LiveReleasesAndPedals := by
  intro l options offset s at_ entered atOnce
  refine ⟨fun key k taken number => ⟨?releaseNow, ?releaseAt⟩,
    fun pedal d taken code => ⟨?downNow, ?upNow, ?downAt, ?upAt⟩⟩
  case releaseNow | releaseAt =>
    rintro rfl
    exact exec_liveRelease_taken taken number
  case downNow | upNow | downAt | upAt =>
    rintro rfl
    exact exec_livePedal_taken taken code

end Sys2Proof.Machine
end

section
/-! PROOFS. What becomes of a request that arrives on a link (O3), and how the response of an item joins the transmit
queue (O4). -/

namespace Sys2Proof.Machine

/-! ### The slots as a request arrives (R192, R193) -/

/-- With every held item answered, an item that takes a slot is the next one. -/
theorem nextItem_append_of_none {slots : List Slot} (answered : nextItem slots = none) (item : Item) :
    nextItem (slots ++ [⟨item, false, none⟩]) = some item := by
  induction slots with
  | nil => rfl
  | cons x rest ih =>
    unfold nextItem at answered
    split at answered
    · next isAnswered =>
      rw [List.cons_append, nextItem, if_pos isAnswered]
      exact ih answered
    · exact absurd answered (by simp)

section
variable {l : Link} {c : Instr} {s : State}

theorem offerRequest_full (full : 2 ≤ (s.link l).slots.length) :
    offerRequest l c s = setLink l { s.link l with overrun := (s.link l).overrun + 1, overrunFlag := true } s := by
  rw [offerRequest, offer_full full]

theorem offerRequest_badLength (free : (s.link l).slots.length < 2) (bad : c.wellFormed = false) :
    offerRequest l c s = setLink l { s.link l with
      slots := (s.link l).slots ++ [⟨.discard .badLength (requestKind c), false, none⟩]
      frameError := (s.link l).frameError + 1 } s := by
  rw [offerRequest, offer_free free, bad]
  rfl

/-- The state once a request has taken a slot. -/
def withHeld (l : Link) (c : Instr) (s : State) : State :=
  setLink l { s.link l with slots := (s.link l).slots ++ [⟨.request c, false, none⟩] } s

theorem offerRequest_held (free : (s.link l).slots.length < 2) (well : c.wellFormed = true) :
    offerRequest l c s = withHeld l c s := by
  rw [offerRequest, offer_free free, well, if_pos rfl, withHeld]
  congr 2
  exact BitVec.add_zero _

theorem receives_iff : s.receives l = true ↔ s.running = true ∧ (s.link l).up = true := Bool.and_eq_true_iff

/-- A request that has taken a slot is next where every earlier item is answered. -/
theorem withHeld_takes (receives : s.receives l = true) (answered : nextItem (s.link l).slots = none) :
    Takes (withHeld l c s) l c := by
  obtain ⟨running, up⟩ := receives_iff.1 receives
  refine ⟨receives_iff.2 ⟨?_, ?_⟩, ?_⟩
  · simpa [withHeld, State.running] using running
  · simpa [withHeld] using up
  · simpa [withHeld] using nextItem_append_of_none answered (.request c)

/-! ### The arrival (R193, R194; log 7) -/

theorem request_of_not_receives (run : State → Reply × State) (deaf : s.receives l = false) : request l c run s = s :=
  if_neg (by rw [Bool.and_comm]; exact Bool.eq_false_iff.1 deaf)

/-- An arrival is offered to the slots, and executed at once where it takes one and no earlier item waits. -/
theorem request_arrives (run : State → Reply × State) (receives : s.receives l = true)
    (arrives : nextItem (s.link l).slots ≠ some (.request c)) :
    request l c run s
      = if c.wellFormed && (nextItem (s.link l).slots).isNone && decide ((s.link l).slots.length < 2) then
          execute l c run (offerRequest l c s)
        else offerRequest l c s := by
  rw [State.receives, Bool.and_comm] at receives
  rw [request, if_pos receives, if_neg arrives]

end

/-- Settles O3: an arrival is lost, discarded, held, or executed, by the slots and the items in them. -/
theorem requestArrival : Obligations.RequestArrival := by
  intro c l s link arrives
  obtain ⟨run, dispatched⟩ := exec_is_request link
  simp only [dispatched]
  refine ⟨fun deaf => ?deaf, fun receives => ?_⟩
  case deaf => rw [request_of_not_receives run deaf]
  rw [request_arrives run receives arrives]
  refine ⟨fun full => ?overrun,
    fun free => ⟨fun bad => ?badLength, fun well => ⟨fun waits => ?held, fun answered => ?executed⟩⟩⟩
  case overrun =>
    rw [decide_eq_false (Nat.not_lt.2 full), Bool.and_false, if_neg Bool.false_ne_true, offerRequest_full full]
  case badLength => rw [if_neg (by simp [bad]), offerRequest_badLength free bad]
  case held =>
    rw [if_neg (by simp [Option.isNone_eq_false_iff.2 waits]), offerRequest_held free well]
    rfl
  case executed =>
    rw [if_pos (by simp [well, answered, free]), offerRequest_held free well]
    exact congrArg Host.Outcome.next (request_taken (withHeld_takes receives answered) run).symm

/-! ### The making of a response (R194, R195; log 25) -/

/-- The next transmission begins where nothing is in transmission, no action is to be carried out, and a message waits. -/
theorem startTransmission_begins {r : LinkRecord} {m : Message} {rest : List Message} (idle : r.sending = none)
    (due : r.due = []) (queue : r.transmitQueue = m :: rest) :
    startTransmission r = { r with
      transmitQueue := rest, sending := some (.message m r.overrunFlag), overrunFlag := false } := by
  unfold startTransmission
  rw [idle, due, queue]

/-- With nothing waiting no transmission begins. -/
theorem startTransmission_of_empty {r : LinkRecord} (empty : r.transmitQueue = []) : startTransmission r = r := by
  unfold startTransmission
  split
  · next _ _ queue => exact absurd (empty.symm.trans queue) (List.cons_ne_nil _ _).symm
  · rfl

/-- The response joins the back of the queue, and the message at its front begins. -/
theorem answer_begins {m first : Message} {after : Option AfterAction} {r : LinkRecord} {rest : List Message}
    (idle : r.sending = none) (due : r.due = []) (queue : r.transmitQueue ++ [m] = first :: rest) :
    answer m after r = { r with
      slots := markAnswered after r.slots
      transmitQueue := rest
      sending := some (.message first r.overrunFlag)
      overrunFlag := false } :=
  startTransmission_begins idle due queue

/-- Settles O4: the response is marked and joins the queue, and the queue's first message begins where one may. -/
theorem responseJoinsQueue : Obligations.ResponseJoinsQueue := by
  intro m after r
  refine ⟨fun idle due empty => ?atOnce, fun busy => ?joins, fun first rest idle due queue => ?firstBegins⟩
  case atOnce => rw [answer_begins idle due (by rw [empty]; rfl), empty]
  case joins => exact startTransmission_busy busy
  case firstBegins => exact answer_begins idle due (by rw [queue]; rfl)

end Sys2Proof.Machine
end

section
/-! PROOFS. What the samples of a character make of it, and the line that the part drives for a message (O35). -/

namespace Sys2Proof.Machine

/-! ### Numbers from their bits -/

/-- A sum of powers of two, each taken or not, has those bits and no others. -/
theorem testBit_sum_of_bits (bit : Nat → Bool) (n : Nat) :
    let sum := (List.range n).foldl (fun acc i => acc + (bit i).toNat * 2 ^ i) 0
    sum < 2 ^ n ∧ ∀ i, i < n → sum.testBit i = bit i := by
  induction n with
  | zero => exact ⟨Nat.one_pos, fun i inside => absurd inside (Nat.not_lt_zero i)⟩
  | succ n ih =>
    obtain ⟨small, bits⟩ := ih
    simp only [List.range_succ, List.foldl_append, List.foldl_cons, List.foldl_nil]
    rw [Nat.add_comm, Nat.mul_comm]
    refine ⟨?bound, fun i inside => ?bit⟩
    case bound =>
      have top := Nat.mul_le_mul_left (2 ^ n) (Bool.toNat_le (bit n))
      omega
    case bit =>
      rw [Nat.testBit_two_pow_mul_add _ small]
      split
      · next below => exact bits i below
      · next above =>
        obtain rfl : i = n := by omega
        rw [Nat.sub_self]
        cases bit i <;> rfl

/-! ### The samples of a character (R188) -/

theorem getLsbD_dataOf (samples : BitVec 33) {i : Nat} (inside : i < 8) :
    (dataOf samples).getLsbD i = majority samples (i + 1) := by
  have ⟨_, bits⟩ := testBit_sum_of_bits (fun i => majority samples (i + 1)) 8
  rw [dataOf, BitVec.getLsbD_ofNat, bits i inside, decide_eq_true inside, Bool.true_and]

theorem noisy_iff (samples : BitVec 33) :
    noisy samples = true ↔ ∃ i, i < 11 ∧ (highSamples samples i = 1 ∨ highSamples samples i = 2) := by
  simp [noisy, unlike]

theorem majority_iff (samples : BitVec 33) (i : Nat) : majority samples i = true ↔ 2 ≤ highSamples samples i :=
  decide_eq_true_iff

theorem majority_eq_false_iff (samples : BitVec 33) (i : Nat) : majority samples i = false ↔ highSamples samples i < 2 :=
  decide_eq_false_iff_not.trans Nat.not_le

section
variable {samples : BitVec 33}

/-- With a high start bit there is no character. -/
theorem receivedOf_high (start : majority samples 0 = true) : receivedOf samples = none := if_pos start

theorem receivedOf_noisy (start : majority samples 0 = false) (isNoisy : noisy samples = true)
    (stop : majority samples 10 = true) : receivedOf samples = some (.spoilt .noise) := by
  simp [receivedOf, start, isNoisy, stop]

theorem receivedOf_framing (start : majority samples 0 = false) (quiet : noisy samples = false)
    (stop : majority samples 10 = false) : receivedOf samples = some (.spoilt .framing) := by
  simp [receivedOf, start, quiet, stop]

theorem receivedOf_clean (start : majority samples 0 = false) (quiet : noisy samples = false)
    (stop : majority samples 10 = true) :
    receivedOf samples = some (.clean (dataOf samples) (majority samples 9)) := by
  simp [receivedOf, start, quiet, stop]

end

/-! ### A clean character (R188, Section 10.7.1) -/

/-- The samples of bit times that are each low or high throughout, as a number. -/
def steadySamples (bits : List Bool) : Nat := (bits.mapIdx fun i b => if b then 7 * 2 ^ (3 * i) else 0).sum

theorem cleanCharacter_eq (data : Byte) (mark : Bool) :
    cleanCharacter data mark = BitVec.ofNat 33 (steadySamples (characterBits data mark)) := rfl

theorem sum_map_mul (k : Nat) {α : Type} (f : α → Nat) (xs : List α) :
    (xs.map fun x => k * f x).sum = k * (xs.map f).sum := by
  induction xs with
  | nil => rfl
  | cons x rest ih => rw [List.map_cons, List.sum_cons, ih, List.map_cons, List.sum_cons, Nat.mul_add]

theorem steadySamples_cons (b : Bool) (bits : List Bool) :
    steadySamples (b :: bits) = 2 ^ 3 * steadySamples bits + (if b then 7 else 0) := by
  have shifted : (fun i (b : Bool) => if b then 7 * 2 ^ (3 * (i + 1)) else 0)
      = fun i b => 2 ^ 3 * (if b then 7 * 2 ^ (3 * i) else 0) := by
    funext i b
    split
    · rw [Nat.mul_add, Nat.pow_add, Nat.mul_comm (2 ^ (3 * i)), Nat.mul_left_comm]
    · rfl
  simp only [steadySamples, List.mapIdx_cons, List.sum_cons, shifted]
  rw [Nat.add_comm, List.mapIdx_eq_zipIdx_map, List.mapIdx_eq_zipIdx_map]
  exact congrArg (· + _) (sum_map_mul (2 ^ 3) (fun x : Bool × Nat => if x.1 then 7 * 2 ^ (3 * x.2) else 0) bits.zipIdx)

/-- Each of the three samples of a bit time is its level. -/
theorem testBit_steadySamples {j : Nat} (inside : j < 3) (bits : List Bool) (i : Nat) :
    (steadySamples bits).testBit (3 * i + j) = bits.getD i false := by
  induction bits generalizing i with
  | nil => simp [steadySamples]
  | cons b rest ih =>
    rw [steadySamples_cons, Nat.testBit_two_pow_mul_add _ (by split <;> decide)]
    cases i with
    | zero =>
      rw [if_pos (by omega)]
      match j with
      | 0 | 1 | 2 => cases b <;> rfl
    | succ i =>
      rw [if_neg (by omega), show 3 * (i + 1) + j - 3 = 3 * i + j by omega]
      exact ih i

theorem highSamples_cleanCharacter (data : Byte) (mark : Bool) {i : Nat} (inside : i < 11) :
    highSamples (cleanCharacter data mark) i = 3 * ((characterBits data mark).getD i false).toNat := by
  have level : ∀ j, j < 3 →
      (cleanCharacter data mark).getLsbD (3 * i + j) = (characterBits data mark).getD i false := by
    intro j sample
    rw [cleanCharacter_eq, BitVec.getLsbD_ofNat, decide_eq_true (by omega), Bool.true_and]
    exact testBit_steadySamples sample _ i
  rw [highSamples, level 1 (by decide), level 2 (by decide), show 3 * i = 3 * i + 0 from rfl, level 0 (by decide)]
  omega

theorem majority_cleanCharacter (data : Byte) (mark : Bool) {i : Nat} (inside : i < 11) :
    majority (cleanCharacter data mark) i = (characterBits data mark).getD i false := by
  rw [majority, highSamples_cleanCharacter data mark inside]
  cases (characterBits data mark).getD i false <;> rfl

theorem noisy_cleanCharacter (data : Byte) (mark : Bool) : noisy (cleanCharacter data mark) = false := by
  rw [← Bool.not_eq_true, noisy_iff]
  rintro ⟨i, inside, unlike⟩
  rw [highSamples_cleanCharacter data mark inside] at unlike
  omega

theorem characterBits_eq (data : Byte) (mark : Bool) : characterBits data mark
    = [false, data.getLsbD 0, data.getLsbD 1, data.getLsbD 2, data.getLsbD 3, data.getLsbD 4, data.getLsbD 5,
      data.getLsbD 6, data.getLsbD 7, mark, true] := rfl

theorem characterBits_data (data : Byte) (mark : Bool) {i : Nat} (inside : i < 8) :
    (characterBits data mark).getD (i + 1) false = data.getLsbD i := by
  match i with
  | 0 | 1 | 2 | 3 | 4 | 5 | 6 | 7 => rfl

/-- A clean character gives its data value and its mark. -/
theorem receivedOf_cleanCharacter (data : Byte) (mark : Bool) :
    receivedOf (cleanCharacter data mark) = some (.clean data mark) := by
  have level := fun i inside => majority_cleanCharacter data mark (i := i) inside
  have same : dataOf (cleanCharacter data mark) = data := by
    apply BitVec.eq_of_getLsbD_eq
    intro i inside
    rw [getLsbD_dataOf _ inside, level (i + 1) (by omega), characterBits_data data mark inside]
  rw [receivedOf_clean (level 0 (by decide)) (noisy_cleanCharacter data mark) (level 10 (by decide)), same,
    level 9 (by decide)]
  rfl

/-! ### The line that the part drives (Sections 10.7.1 to 10.7.3) -/

/-- Every message in transmission is a frame (Section 10.7.2). -/
theorem frame_eq_frameOf (t : Transmission) : ∃ kind body, t.frame = frameOf kind body := by
  match t with
  | .message (.response _ _ _) _ => exact ⟨_, _, rfl⟩
  | .message (.frameError _ _) _ => exact ⟨_, _, rfl⟩
  | .notice _ => exact ⟨_, _, rfl⟩

/-- The header alone is marked. -/
theorem bits_of_frame {t : Transmission} {header : Byte} {rest : List Byte} (frame : t.frame = header :: rest) :
    t.bits = List.replicate 12 false ++ [true, true] ++ characterBits header true
      ++ rest.flatMap fun data => characterBits data false := by
  rw [Transmission.bits, frame, marked, List.flatMap_cons, List.flatMap_map, List.append_assoc _ _ (rest.flatMap _)]

theorem sumOf_cons (x : Byte) (rest : List Byte) : sumOf (x :: rest) = x + sumOf rest := by
  rw [← foldl_sum, sumOf, List.foldl_cons, show (0 : Byte) + x = x from BitVec.zero_add x]

theorem sum_toNat_mod (chars : List Byte) : (chars.map BitVec.toNat).sum % 256 = (sumOf chars).toNat := by
  induction chars with
  | nil => rfl
  | cons x rest ih => rw [sumOf_cons, BitVec.toNat_add, ← ih, List.map_cons, List.sum_cons, Nat.add_mod_mod]

/-- A frame's characters, and the check that brings their sum to a multiple of 256. -/
theorem frameOf_layout (kind : Byte) (body : List Byte) :
    ∃ check : Byte, frameOf kind body = kind :: BitVec.ofNat 8 body.length :: body ++ [check]
      ∧ ((frameOf kind body).map BitVec.toNat).sum % 256 = 0 :=
  ⟨_, rfl, by rw [sum_toNat_mod, sumOf_frame]; rfl⟩

theorem Result.code_eq_place (result : Result) : result.code = BitVec.ofNat 8 (codeIn [.ok, .accepted, .notHolder,
    .heldByOther, .alreadyHolder, .wrongPhase, .notAdmitted, .badState, .outOfRange, .queueFull, .clockStopped, .storeBusy,
    .protected_, .profileDamaged, .supplyCritical, .unknownRequest] result) := by
  cases result <;> rfl

theorem DiscardReason.code_eq_place (reason : DiscardReason) :
    reason.code = BitVec.ofNat 8 (codeIn [.noise, .framing, .mark, .truncated, .check, .badLength] reason + 1) := by
  cases reason <;> rfl

/-- Settles O35: the samples by their start bit, their likeness and their stop bit; the bits of a frame; and the three frames. -/
theorem characterSamples : Obligations.CharacterSamples := by
  refine ⟨receivedOf_cleanCharacter, ?samples, fun t => ?bits, characterBits_eq, ?frames⟩
  case samples =>
    intro samples high isNoisy
    have low : high 0 < 2 → majority samples 0 = false := (majority_eq_false_iff samples 0).2
    have quiet : ¬ isNoisy → noisy samples = false := fun alike =>
      Bool.eq_false_iff.2 fun noise => alike ((noisy_iff samples).1 noise)
    refine ⟨fun start => receivedOf_high ((majority_iff samples 0).2 start), fun start noise stop => ?noise,
      fun start alike stop => ?framing, fun start alike stop => ?clean⟩
    case noise => exact receivedOf_noisy (low start) ((noisy_iff samples).2 noise) ((majority_iff samples 10).2 stop)
    case framing => exact receivedOf_framing (low start) (quiet alike) ((majority_eq_false_iff samples 10).2 stop)
    case clean =>
      exact ⟨_, _, receivedOf_clean (low start) (quiet alike) ((majority_iff samples 10).2 stop), rfl,
        fun i inside => getLsbD_dataOf samples inside⟩
  case bits =>
    obtain ⟨kind, body, frame⟩ := frame_eq_frameOf t
    exact ⟨_, _, frame, bits_of_frame frame⟩
  case frames =>
    intro kind result reason data flag kinds frame results reasons overrun
    refine ⟨?response, ?frameError, frameOf_layout _ _⟩
    case response =>
      show frame 160 (kind :: BitVec.ofNat 8 (codeIn results result) :: overrun :: data) _
      rw [show BitVec.ofNat 8 (codeIn results result) = result.code from result.code_eq_place.symm]
      exact frameOf_layout _ _
    case frameError =>
      rw [show BitVec.ofNat 8 (codeIn reasons reason + 1) = reason.code from reason.code_eq_place.symm]
      exact frameOf_layout _ _

end Sys2Proof.Machine
end

section
/-! PROOFS. The receiver of a link, character by character (O36), and the breaks that open a message and the idle line that cuts
one (O37). -/

namespace Sys2Proof.Machine

/-! ### A character by the state of the receiver (R191, R192) -/

section
variable {l : Link} {r : LinkRecord} {kind n data sum : Byte} {got : List Byte}

/-- Outside a message a character counts STRAY, whatever it is. -/
theorem takeCharacter_waitBreak (c : Received) (waits : r.receiver = .waitBreak) :
    takeCharacter l c r = { r with stray := r.stray + 1 } := by
  match c with
  | .clean _ false => simp only [takeCharacter, takeData, waits]
  | .clean _ true => simp only [takeCharacter, takeMarked, waits]
  | .spoilt _ => simp only [takeCharacter, takeSpoilt, waits]

theorem takeSpoilt_inMessage (reason : DiscardReason) (opened : r.receiver ≠ .waitBreak) :
    takeSpoilt reason r = discarded reason r.receiver.kind .waitBreak r := by
  unfold takeSpoilt
  split
  · next waits => exact absurd waits opened
  · exact discard_eq _ _ r

theorem takeMarked_header (awaits : r.receiver = .awaitHeader) :
    takeMarked data r = { r with receiver := .awaitLength data data } := by
  simp only [takeMarked, awaits]

/-- A marked character after the header cuts the message. -/
theorem takeMarked_inMessage (opened : r.receiver ≠ .waitBreak) (past : r.receiver ≠ .awaitHeader) :
    takeMarked data r = discarded .mark r.receiver.kind .waitBreak r := by
  unfold takeMarked
  split
  · next waits => exact absurd waits opened
  · next awaits => exact absurd awaits past
  · exact discard_eq _ _ r

theorem takeData_header (awaits : r.receiver = .awaitHeader) : takeData l data r = discarded .mark 0 .waitBreak r := by
  simp only [takeData, awaits, discard_eq, Receiver.kind]

theorem takeData_noBody (awaits : r.receiver = .awaitLength kind sum) :
    takeData l 0 r = { r with receiver := .awaitCheck kind 0 [] sum } := by
  simp only [takeData, awaits]
  rw [if_neg (by decide), if_pos trivial, show sum + 0 = sum from BitVec.add_zero sum]

theorem takeData_length (awaits : r.receiver = .awaitLength kind sum) (present : 1 ≤ data.toNat) (fits : data.toNat ≤ 250) :
    takeData l data r = { r with receiver := .body kind data [] (sum + data) } := by
  simp only [takeData, awaits]
  rw [if_neg (Nat.not_lt.2 fits), if_neg fun none => absurd present (by rw [none]; decide)]

theorem takeData_tooLong (awaits : r.receiver = .awaitLength kind sum) (long : 250 < data.toNat) :
    takeData l data r = discarded .badLength kind .waitBreak r := by
  simp only [takeData, awaits]
  rw [if_pos long, discard_eq, awaits, Receiver.kind]

theorem takeData_body (inBody : r.receiver = .body kind n got sum) :
    takeData l data r = { r with
      receiver :=
        if got.length + 1 < n.toNat then .body kind n (got ++ [data]) (sum + data)
        else .awaitCheck kind n (got ++ [data]) (sum + data) } := by
  simp only [takeData, inBody, List.length_append, List.length_singleton]
  by_cases more : got.length + 1 < n.toNat
  · rw [if_neg (Nat.not_le.2 more), if_pos more]
  · rw [if_pos (Nat.le_of_not_lt more), if_neg more]

theorem takeData_check (awaits : r.receiver = .awaitCheck kind n got sum) :
    takeData l data r = complete l kind got (sum + data) r := by
  simp only [takeData, awaits]

/-! ### A complete message (R192) -/

theorem complete_badCheck (wrong : sum ≠ 0) : complete l kind got sum r = discarded .check r.receiver.kind .waitBreak r :=
  (if_pos wrong).trans (discard_eq _ _ r)

theorem complete_badLength (unread : requestOf l kind got = none) :
    complete l kind got 0 r = discarded .badLength r.receiver.kind .waitBreak r := by
  rw [complete, if_neg (not_not_intro rfl), unread]
  exact discard_eq _ _ r

theorem complete_request {q : Instr} (read : requestOf l kind got = some q) :
    complete l kind got 0 r = { offer (.request q) r with receiver := .waitBreak } := by
  rw [complete, if_neg (not_not_intro rfl), read]

end

/-! ### CHARACTER (R188, R191) -/

/-- No character, or no reception: nothing changes. -/
theorem exec_character_of_none {l : Link} {samples : BitVec 33} {s : State}
    (none : s.receives l = false ∨ receivedOf samples = none) : exec (.character l samples) s = .next s := by
  refine congrArg Host.Outcome.next ?_
  rcases none with deaf | noCharacter
  · exact if_neg (Bool.eq_false_iff.1 deaf)
  · rw [noCharacter, ite_self]

/-- The receiver takes a character on the line that the character leaves. -/
theorem exec_character {l : Link} {samples : BitVec 33} {s : State} {c : Received} (receives : s.receives l = true)
    (received : receivedOf samples = some c) :
    exec (.character l samples) s = .next (setLink l (takeCharacter l c (lineAfter samples (s.link l))) s) := by
  refine congrArg Host.Outcome.next ?_
  rw [if_pos receives, received]

/-- Settles O36: by the state of the receiver and the character, each row of the table. -/
theorem receiverTable : Obligations.ReceiverTable := by
  intro l samples s
  refine ⟨exec_character_of_none, fun c receives received => ?_⟩
  intro r becomes
  have takes : ∀ r', takeCharacter l c r = r' → becomes r' := by
    rintro r' rfl
    exact exec_character receives received
  refine ⟨fun waits => ?waitBreak, ?spoilt, ?header, ?marked, ?data⟩
  case waitBreak => exact takes _ (takeCharacter_waitBreak c waits)
  case spoilt =>
    rintro reason rfl opened
    exact takes _ (takeSpoilt_inMessage reason opened)
  case header =>
    rintro data rfl awaits
    exact takes _ (takeMarked_header awaits)
  case marked =>
    rintro data rfl opened past
    exact takes _ (takeMarked_inMessage opened past)
  case data =>
    rintro data rfl
    refine ⟨fun awaits => takes _ (takeData_header awaits), fun kind sum awaits => ⟨?noBody, ?length, ?tooLong⟩,
      fun kind n got sum inBody => takes _ (takeData_body inBody),
      fun kind n got sum awaits => ⟨?check, ?badLength, ?request⟩⟩
    case noBody =>
      rintro rfl
      exact takes _ (takeData_noBody awaits)
    case length => exact fun present fits => takes _ (takeData_length awaits present fits)
    case tooLong => exact fun long => takes _ (takeData_tooLong awaits long)
    case check =>
      intro wrong
      refine takes _ ((takeData_check awaits).trans ?_)
      rw [complete_badCheck wrong, awaits, Receiver.kind]
    case badLength =>
      intro right unread
      refine takes _ ((takeData_check awaits).trans ?_)
      rw [right, complete_badLength unread, awaits, Receiver.kind]
    case request =>
      intro q right read
      refine takes _ ((takeData_check awaits).trans ?_)
      rw [right, complete_request read]

/-! ### Breaks and idle (R189, R191, R205) -/

theorem takeBreak_opens {r : LinkRecord} (waits : r.receiver = .waitBreak) :
    takeBreak r = { r with receiver := .awaitHeader } := by
  simp only [takeBreak, waits]

/-- A break inside a message cuts it, and opens the next. -/
theorem takeBreak_cuts {r : LinkRecord} (opened : r.receiver ≠ .waitBreak) :
    takeBreak r = discarded .truncated r.receiver.kind .awaitHeader r := by
  unfold takeBreak
  split
  · next waits => exact absurd waits opened
  · exact discard_eq _ _ r

section
variable {l : Link} {s : State}

theorem exec_break_running (receives : s.receives l = true) (armed : (s.link l).breakArmed = true) :
    exec (.breakDetected l) s = .next (setLink l (takeBreak (s.link l).disarm) s) := by
  obtain ⟨running, up⟩ := receives_iff.1 receives
  refine congrArg Host.Outcome.next ((if_pos (by rw [up, armed]; rfl)).trans ?_)
  rw [(running_iff s).1 running]

/-- An armed break in standby wakes the part, and opens no message. -/
theorem exec_break_standby (up : (s.link l).up = true) (armed : (s.link l).breakArmed = true)
    (standby : s.power.state = .standby) :
    exec (.breakDetected l) s = .next (wake (setLink l (s.link l).disarm s)) := by
  refine congrArg Host.Outcome.next ((if_pos (by rw [up, armed]; rfl)).trans ?_)
  rw [standby]

/-- In stabilisation an armed break is not taken. -/
theorem exec_break_waking (up : (s.link l).up = true) (armed : (s.link l).breakArmed = true)
    (waking : s.power.state = .waking) :
    exec (.breakDetected l) s = .next (setLink l { s.link l with lineHigh := false } s) := by
  refine congrArg Host.Outcome.next ((if_pos (by rw [up, armed]; rfl)).trans ?_)
  rw [waking]

theorem exec_break_unarmed (unarmed : (s.link l).up = false ∨ (s.link l).breakArmed = false) :
    exec (.breakDetected l) s = .next (setLink l { s.link l with lineHigh := false } s) :=
  congrArg Host.Outcome.next (if_neg (by rcases unarmed with h | h <;> simp [h]))

theorem wake_setLink (r : LinkRecord) (standby : s.power.state = .standby) :
    wake (setLink l r s) = setLink l r { s with power := s.power.wakened s.perf.now } := by
  rw [wake_of_standby ((setLink_power l r s).symm ▸ standby), setLink_power, setLink_perf]
  cases l <;> rfl

end

/-- Settles O37: a break by its arming and the power state, and the idle line by the receiver. -/
theorem breaksOpen : Obligations.BreaksOpen := by
  intro l s r low
  refine ⟨fun receives armed => ⟨fun waits => ?opens, fun opened => ?cuts⟩, fun up armed standby => ?standby,
    exec_break_waking, exec_break_unarmed, rfl, fun receives opened => ?idleCuts, fun idle => ?idle⟩
  case opens =>
    rw [exec_break_running receives armed, takeBreak_opens (show (s.link l).disarm.receiver = _ from waits)]
    rfl
  case cuts =>
    rw [exec_break_running receives armed, takeBreak_cuts (show (s.link l).disarm.receiver ≠ _ from opened)]
    rfl
  case standby => exact (exec_break_standby up armed standby).trans (congrArg Host.Outcome.next (wake_setLink _ standby))
  case idleCuts =>
    rw [← discard_eq]
    exact congrArg Host.Outcome.next (if_pos (by rw [receives, decide_eq_true opened]; rfl))
  case idle =>
    refine congrArg Host.Outcome.next (if_neg ?_)
    rcases idle with deaf | waits
    · simp [deaf]
    · simp [show (s.link l).receiver = _ from waits]

end Sys2Proof.Machine
end

section
/-! PROOFS. Discard records, the end of a message, the change of rate, and the sending of notices (O39). -/

namespace Sys2Proof.Machine

section
variable {l : Link} {s : State} {r : LinkRecord}

/-! ### Discard records and the end of a message (R193, R194) -/

theorem exec_discardRecord {reason : DiscardReason} {kind : Byte} (receives : s.receives l = true)
    (next : nextItem (s.link l).slots = some (.discard reason kind)) :
    exec (.discardRecord l) s = .next (setLink l (answer (.frameError kind reason) none (s.link l)) s) := by
  refine congrArg Host.Outcome.next ((if_pos receives).trans ?_)
  rw [next]

/-- On a link that receives, a new record of the link goes on to its next transmission. -/
theorem resumeSending_setLink (receives : s.receives l = true) (up : r.up = (s.link l).up) :
    resumeSending l (setLink l r s) = setLink l (startTransmission r) s := by
  have same : ((setLink l r s).running && ((setLink l r s).link l).up) = s.receives l := by
    rw [setLink_link, up, State.running, setLink_power]
    rfl
  rw [resumeSending, same, if_pos receives, setLink_link, setLink_setLink]

/-- The end of a message frees the slot that it answered, and the slot's action is to be carried out. -/
theorem sent_message {m : Message} {flag : Bool} {x : Slot} {rest : List Slot} (sending : r.sending = some (.message m flag))
    (slots : r.slots = x :: rest) (answered : x.answered = true) :
    r.sent = { r with sending := none, slots := rest, due := r.due ++ x.after.toList } := by
  simp only [LinkRecord.sent, sending, freeSlot, slots]
  exact if_pos answered

theorem sent_notice {kinds : Notices} (sending : r.sending = some (.notice kinds)) :
    r.sent = { r with sending := none } := by
  simp only [LinkRecord.sent, sending]

theorem freeSlot_up (r : LinkRecord) : (freeSlot r).up = r.up := by
  unfold freeSlot
  split
  · split <;> rfl
  · rfl

theorem sent_up (r : LinkRecord) : r.sent.up = r.up := by
  unfold LinkRecord.sent
  split
  · exact freeSlot_up _
  · rfl
  · rfl

theorem exec_messageSent (receives : s.receives l = true) :
    exec (.messageSent l) s = .next (setLink l (startTransmission (s.link l).sent) s) :=
  congrArg Host.Outcome.next (resumeSending_setLink receives (sent_up _))

/-! ### The change of rate (R198; log 36) -/

/-- The record as its link's rate changes, the message in reception cut. -/
def withRateChanged (rate : Rate) (r : LinkRecord) : LinkRecord :=
  { (if r.receiver = .waitBreak then r else discarded .truncated r.receiver.kind .waitBreak r) with
    due := [], rate := rate, breakArmed := true }

/-- A discard does not ask what is to be carried out. -/
theorem discarded_with_due (reason : DiscardReason) (kind : Byte) (next : Receiver) (due : List AfterAction)
    (r : LinkRecord) :
    discarded reason kind next { r with due := due } = { discarded reason kind next r with due := due } := by
  unfold discarded
  split <;> rfl

theorem changeRate_done {rate : Rate} (due : r.due = [.rate rate]) :
    (r.done (.rate rate)).changeRate rate = withRateChanged rate r := by
  have done : r.done (.rate rate) = { r with due := [] } := by
    rw [LinkRecord.done, due, List.erase_cons_head]
  rw [done, LinkRecord.changeRate, withRateChanged]
  by_cases waits : r.receiver = .waitBreak
  · rw [if_pos waits, if_pos waits]
  · rw [if_neg waits, if_neg waits, discard_eq, discarded_with_due]

theorem changeRate_up (rate : Rate) (r : LinkRecord) : (r.changeRate rate).up = r.up := by
  unfold LinkRecord.changeRate
  split
  · rfl
  · exact discard_up .truncated .waitBreak r

theorem withRateChanged_keeps (rate : Rate) (r : LinkRecord) :
    (withRateChanged rate r).sending = r.sending ∧ (withRateChanged rate r).transmitQueue = r.transmitQueue := by
  unfold withRateChanged
  rw [← discard_eq]
  split
  · exact ⟨rfl, rfl⟩
  · exact ⟨discard_sending .truncated .waitBreak r, discard_transmitQueue .truncated .waitBreak r⟩

theorem exec_linkRateChange {rate : Rate} (receives : s.receives l = true) (due : (s.link l).due = [.rate rate]) :
    exec (.linkRateChange l) s
      = .next (setLink l (startTransmission (withRateChanged rate (s.link l))) s) := by
  have named : dueRate (s.link l).due = some rate := by rw [due]; rfl
  refine congrArg Host.Outcome.next ?_
  rw [named]
  refine (resumeSending_setLink receives (changeRate_up rate ((s.link l).done (.rate rate)))).trans ?_
  rw [changeRate_done due]

/-! ### Notices (R196) -/

theorem setPendingNotices_other (l : Link) (n : Notices) (i : Instrument) :
    pendingNotices l.other (setPendingNotices l n i) = pendingNotices l.other i := by
  cases l <;> rfl

theorem setPendingNotices_sets (l : Link) (n : Notices) (i : Instrument) :
    setPendingNotices l n i = { i with
      noticesA := (setPendingNotices l n i).noticesA, noticesB := (setPendingNotices l n i).noticesB } := by
  cases l <;> rfl

theorem noticeReady_of (receives : s.receives l = true) (idle : (s.link l).sending = none)
    (empty : (s.link l).transmitQueue = []) (due : (s.link l).due = [])
    (kinds : pendingNotices l s.perf.instrument &&& (s.link l).mask ≠ 0) : s.noticeReady l = true := by
  have carries : decide (s.noticeKinds l ≠ 0) = true := decide_eq_true kinds
  rw [State.noticeReady, receives, idle, empty, due, carries]
  rfl

/-- The kinds that a mask lets through leave a set with those it does not. -/
theorem and_not_and_self (pending mask : Notices) : pending &&& ~~~(pending &&& mask) = pending &&& ~~~mask := by
  ext i
  simp only [BitVec.getElem_and, BitVec.getElem_not]
  cases pending[i] <;> simp

/-- The instrument once a notice of the link has taken its kinds. -/
def withNoticed (l : Link) (mask : Notices) (i : Instrument) : Instrument :=
  setPendingNotices l (pendingNotices l i &&& ~~~mask) i

theorem exec_notice (ready : s.noticeReady l = true) :
    exec (.notice l) s
      = .next (setLink l { s.link l with
          sending := some (.notice (pendingNotices l s.perf.instrument &&& (s.link l).mask)) }
        { s with perf := { s.perf with instrument := withNoticed l (s.link l).mask s.perf.instrument } }) := by
  refine congrArg Host.Outcome.next ((if_pos ready).trans ?_)
  rw [withNoticed, ← and_not_and_self]
  rfl

end

/-- Settles O39: the record that each of the four events leaves, and the transmission that it lets begin. -/
theorem messagesGo : Obligations.MessagesGo := by
  intro l s receives r
  have goesOn : ∀ r', startTransmission r.sent = r' → exec (.messageSent l) s = .next (setLink l r' s) := by
    rintro r' rfl
    exact exec_messageSent receives
  refine ⟨fun reason kind next => exec_discardRecord receives next, ?sent, fun kinds sending empty => ?noticeSent,
    fun rate due => ?rate, ?notice⟩
  case sent =>
    intro m flag x rest sending slots answered due
    refine ⟨fun noAction empty => ?ends, fun next queue noAction waits => ?nextBegins, fun a follows => ?follows⟩
    case ends =>
      refine goesOn _ ?_
      rw [sent_message sending slots answered, noAction, Option.toList_none, List.append_nil]
      exact startTransmission_of_empty empty
    case nextBegins =>
      refine goesOn _ ?_
      rw [sent_message sending slots answered, noAction, Option.toList_none, List.append_nil]
      exact startTransmission_begins rfl due waits
    case follows =>
      refine goesOn _ ?_
      rw [sent_message sending slots answered, follows, due]
      exact startTransmission_busy (.inr (List.cons_ne_nil a []))
  case noticeSent =>
    refine goesOn _ ?_
    rw [sent_notice sending]
    exact startTransmission_of_empty empty
  case rate =>
    intro cut changed
    obtain ⟨sending, queue⟩ := withRateChanged_keeps rate r
    refine ⟨fun empty => ?alone, fun next rest idle waits => ?nextBegins⟩
    case alone => rw [exec_linkRateChange receives due, startTransmission_of_empty (queue.trans empty)]; rfl
    case nextBegins =>
      rw [exec_linkRateChange receives due,
        startTransmission_begins (sending.trans idle) rfl (queue.trans waits)]
      rfl
  case notice =>
    intro kinds idle empty due carries
    exact ⟨_, exec_notice (noticeReady_of receives idle empty due carries), setPendingNotices_pending l _ _,
      setPendingNotices_other l _ _, setPendingNotices_sets l _ _⟩

end Sys2Proof.Machine
end

section
/-! PROOFS. A well-formed request reads back from the kind and the body of its message (O40), and from the characters of its
frame (O41). -/

namespace Sys2Proof.Machine

/-! ### Fields read back from their characters (Sections 10.7.3, 10.7.5) -/

theorem chars16_eq (w : BitVec 16) : chars16 w = [w.setWidth 8, BitVec.ofNat 8 (w.toNat / 256)] := by
  rw [← BitVec.ofNat_toNat]
  rfl

theorem tempoBody_written (l : Link) (period : BitVec 24) :
    tempoBody l (leBytes 3 period.toNat) = some (.setTempo l period) := by
  simp only [leBytes, tempoBody, BitVec.ofNat_toNat, word24_chars]

theorem maskBody_written (l : Link) (kinds : BitVec 16) : maskBody l (chars16 kinds) = some (.setNoticeMask l kinds) := by
  rw [chars16_eq, maskBody, word16_chars]

/-- A field that the options of a well-formed request leave out is 0. -/
theorem zero_of_leftOut {present : Bool} {w : Nat} {field : BitVec w} (well : (present || field == 0) = true)
    (leftOut : present = false) : field = 0 := by
  rwa [leftOut, Bool.false_or, beq_iff_eq] at well

/-- The offset reads back where the options call for it, and is 0 where they do not. -/
theorem offsetField_written {options : Byte} {offset : BitVec 16} (given : optionAt options = false → offset = 0) :
    offsetField options (optionalField (optionAt options) (chars16 offset)) = some offset := by
  unfold offsetField
  cases at_ : optionAt options with
  | false => rw [given at_]; rfl
  | true =>
    rw [chars16_eq]
    exact congrArg some (word16_chars offset)

/-- The fields after the options of a LIVE-STRIKE read back, those that the options leave out as 0: one case for each of the
eight sets of options. -/
theorem strikeFields_written {options velocity : Byte} {offset holdLength : BitVec 16}
    (givenVelocity : optionFixed options = false → velocity = 0) (givenOffset : optionAt options = false → offset = 0)
    (givenHold : optionHold options = false → holdLength = 0) :
    strikeFields options (optionalField (optionFixed options) [velocity]
        ++ optionalField (optionAt options) (chars16 offset)
        ++ optionalField (optionHold options) (chars16 holdLength)) = some (velocity, offset, holdLength) := by
  unfold strikeFields
  cases fixed : optionFixed options <;> cases at_ : optionAt options <;> cases hold : optionHold options <;>
    simp [optionalField, chars16_eq, word16_chars, givenVelocity, givenOffset, givenHold, fixed, at_, hold]

theorem length_optionalField (present : Bool) (field : List Byte) : (optionalField present field).length ≤ field.length := by
  cases present with
  | false => exact Nat.zero_le _
  | true => exact Nat.le_refl _

theorem length_trackLines (lines : List (BitVec 104)) :
    (lines.flatMap fun w => leBytes 13 w.toNat).length = 13 * lines.length := by
  induction lines with
  | nil => rfl
  | cons w rest ih =>
    rw [List.flatMap_cons, List.length_append, leBytes_length, ih, List.length_cons, Nat.mul_succ, Nat.add_comm]

theorem streamBody_written {count : Byte} {lines : List (BitVec 104)} (counted : lines.length = count.toNat) (l : Link) :
    streamBody l (count :: lines.flatMap fun w => leBytes 13 w.toNat) = some (.streamLines l count lines) := by
  rw [streamBody, length_trackLines, if_pos (by rw [counted]), ← counted, linesOf_chars]

theorem contentsLength_le {selector : Byte} {n : Nat} (named : contentsLength selector = some n) : n ≤ 203 := by
  unfold contentsLength at named
  repeat' split at named
  all_goals cases named <;> decide

/-- A kind that names no request makes every body an unknown request (R192). -/
theorem requestOf_unknown {kind : Byte} (unnamed : requestKinds.contains kind.toNat = false) (l : Link) (body : List Byte) :
    requestOf l kind body = some (.unknownRequest l kind body) := by
  unfold requestOf
  split
  case h_32 => rfl
  all_goals next named => rw [named] at unnamed; exact absurd unnamed (by decide)

/-! ### The round trip (Section 10.7.3) -/

theorem requestOf_written {c : Instr} {l : Link} (link : requestLink c = some l) (well : c.wellFormed = true) :
    requestOf l (requestKind c) (requestBody c) = some c := by
  cases c with
  | setTempo l' period =>
    cases link
    exact tempoBody_written l period
  | streamLines l' count lines =>
    cases link
    simp only [Instr.wellFormed, Bool.and_eq_true, beq_iff_eq] at well
    obtain ⟨counted, -⟩ := well
    exact streamBody_written counted l
  | liveStrike l' key options velocity offset holdLength =>
    cases link
    simp only [Instr.wellFormed, Bool.and_eq_true] at well
    obtain ⟨⟨velocityGiven, offsetGiven⟩, holdGiven⟩ := well
    exact congrArg (Option.map _) (strikeFields_written (zero_of_leftOut velocityGiven) (zero_of_leftOut offsetGiven)
      (zero_of_leftOut holdGiven))
  | liveRelease l' key options offset =>
    cases link
    exact congrArg (Option.map _) (offsetField_written (zero_of_leftOut well))
  | livePedal l' pedal options offset =>
    cases link
    exact congrArg (Option.map _) (offsetField_written (zero_of_leftOut well))
  | writeRecord l' selector index contents =>
    cases link
    exact if_pos (beq_iff_eq.1 well)
  | setNoticeMask l' kinds =>
    cases link
    exact maskBody_written l kinds
  | unknownRequest l' kind body =>
    cases link
    simp only [Instr.wellFormed, Bool.and_eq_true, Bool.not_eq_true'] at well
    obtain ⟨unnamed, -⟩ := well
    exact requestOf_unknown unnamed l body
  | _ => cases link <;> rfl

theorem length_requestBody {c : Instr} (well : c.wellFormed = true) : (requestBody c).length ≤ 250 := by
  cases c with
  | streamLines l count lines =>
    simp only [Instr.wellFormed, Bool.and_eq_true, beq_iff_eq, decide_eq_true_eq] at well
    obtain ⟨counted, fits⟩ := well
    rw [requestBody, List.length_cons, length_trackLines]
    omega
  | liveStrike l key options velocity offset holdLength =>
    have velocityFits := length_optionalField (optionFixed options) [velocity]
    have offsetFits := length_optionalField (optionAt options) (chars16 offset)
    have holdFits := length_optionalField (optionHold options) (chars16 holdLength)
    simp only [requestBody, List.length_cons, List.length_append, List.length_nil, chars16, leBytes_length] at *
    omega
  | liveRelease l key options offset | livePedal l key options offset =>
    have offsetFits := length_optionalField (optionAt options) (chars16 offset)
    simp only [requestBody, List.length_cons, chars16, leBytes_length] at *
    omega
  | writeRecord l selector index contents =>
    have fits := contentsLength_le (beq_iff_eq.1 well)
    rw [requestBody, List.length_cons, List.length_cons]
    omega
  | unknownRequest l kind body =>
    simp only [Instr.wellFormed, Bool.and_eq_true, decide_eq_true_eq] at well
    obtain ⟨-, fits⟩ := well
    exact fits
  | _ => exact Nat.le_of_ble_eq_true rfl

/-- Settles O40: the fields of each kind of request read back from the body that they make. -/
theorem requestRoundTrip : Obligations.RequestRoundTrip :=
  fun _ _ link well => ⟨requestOf_written link well, length_requestBody well⟩

/-! ### The characters of a frame, one by one (R191, Section 10.7.2) -/

/-- The receiver's record after characters that bear no mark. -/
def takeUnmarked (l : Link) (chars : List Byte) (r : LinkRecord) : LinkRecord :=
  chars.foldl (fun acc b => takeCharacter l (.clean b false) acc) r

theorem takeFrame_cons (l : Link) (head : Byte) (rest : List Byte) (r : LinkRecord) :
    takeFrame l (head :: rest) r = takeUnmarked l rest (takeMarked head r) := rfl

theorem takeUnmarked_cons (l : Link) (data : Byte) (rest : List Byte) (r : LinkRecord) :
    takeUnmarked l (data :: rest) r = takeUnmarked l rest (takeData l data r) := rfl

theorem takeUnmarked_append (l : Link) (front back : List Byte) (r : LinkRecord) :
    takeUnmarked l (front ++ back) r = takeUnmarked l back (takeUnmarked l front r) :=
  List.foldl_append

section
variable {l : Link} {r : LinkRecord} {kind n sum : Byte} {got : List Byte}

/-- The characters that a body still lacks fill it, and the check is awaited. -/
theorem takeUnmarked_body {data : Byte} {rest : List Byte} (inBody : r.receiver = .body kind n got sum)
    (fills : got.length + (data :: rest).length = n.toNat) :
    takeUnmarked l (data :: rest) r
      = { r with receiver := .awaitCheck kind n (got ++ data :: rest) (sum + sumOf (data :: rest)) } := by
  induction rest generalizing r got data sum with
  | nil =>
    have full : ¬ got.length + 1 < n.toNat := Nat.not_lt.2 (Nat.le_of_eq fills.symm)
    rw [takeUnmarked_cons, takeData_body inBody, if_neg full, sumOf_cons,
      show data + sumOf [] = data from BitVec.add_zero data]
    rfl
  | cons next rest ih =>
    rw [takeUnmarked_cons, takeData_body inBody, if_pos (by simp only [List.length_cons] at fills; omega)]
    rw [ih rfl (by simp only [List.length_cons, List.length_append, List.length_nil] at *; omega)]
    rw [List.append_assoc, List.singleton_append, sumOf_cons data, BitVec.add_assoc]

/-- The length and the body of a frame are taken, and the check is awaited. -/
theorem takeUnmarked_lengthBody {body : List Byte} (fits : body.length ≤ 250)
    (awaits : r.receiver = .awaitLength kind sum) :
    takeUnmarked l (BitVec.ofNat 8 body.length :: body) r
      = { r with
          receiver := .awaitCheck kind (BitVec.ofNat 8 body.length) body
            (sum + sumOf (BitVec.ofNat 8 body.length :: body)) } := by
  have length : (BitVec.ofNat 8 body.length).toNat = body.length := by
    rw [BitVec.toNat_ofNat, Nat.mod_eq_of_lt (by omega)]
  cases body with
  | nil =>
    rw [show sumOf [BitVec.ofNat 8 ([] : List Byte).length] = 0 from rfl, show sum + 0 = sum from BitVec.add_zero sum]
    exact takeData_noBody awaits
  | cons data rest =>
    rw [takeUnmarked_cons, takeData_length awaits (by rw [length]; exact Nat.succ_pos _) (by rw [length]; exact fits),
      takeUnmarked_body rfl (by rw [length]; exact Nat.zero_add _), sumOf_cons (BitVec.ofNat 8 _), BitVec.add_assoc]
    rfl

end

/-- What an offer does not ask is where the receiver stands. -/
theorem offer_with_receiver (item : Item) (now next : Receiver) (r : LinkRecord) :
    { offer item { r with receiver := now } with receiver := next } = { offer item r with receiver := next } := by
  unfold offer
  split <;> rfl

/-- Settles O41: the header, the length with the body, and the check that makes the sum 0 are taken in their turn. -/
theorem framesReceived : Obligations.FramesReceived := by
  intro c l r link well awaits
  have checked (rest : List Byte) : requestKind c + sumOf rest + -sumOf (requestKind c :: rest) = 0 := by
    rw [sumOf_cons]
    exact BitVec.add_right_neg _
  rw [frameOf, List.cons_append, takeFrame_cons, takeMarked_header awaits, takeUnmarked_append,
    takeUnmarked_lengthBody (length_requestBody well) rfl, takeUnmarked_cons, takeData_check rfl, checked,
    complete_request (requestOf_written link well)]
  exact offer_with_receiver _ _ _ r

end Sys2Proof.Machine
end

section
/-! PROOFS. What a step takes: the front of the queue, a command of the part that is due, or the passing of time (O1). -/

namespace Sys2Proof.Machine

/-! ### The commands that are due (log 5) -/

theorem mem_dueCommands {c : Instr} {s : State} : c ∈ dueCommands s ↔ ∃ t, (t, c) ∈ timers s ∧ t ≤ s.perf.now := by
  simp only [dueCommands, List.mem_map, List.mem_filter, decide_eq_true_eq, Prod.exists, exists_eq_right]

/-- With no command due every timer lies ahead of real time. -/
theorem now_lt_timer {s : State} (noneDue : dueCommands s = []) {t : Nat × Instr} (set : t ∈ timers s) :
    s.perf.now < t.1 := by
  refine Nat.lt_of_not_le fun past => ?_
  have due : t.2 ∈ dueCommands s := mem_dueCommands.2 ⟨t.1, set, past⟩
  rw [noneDue] at due
  exact List.not_mem_nil due

/-! ### How long an idle step lets pass (log 5) -/

/-- An idle step lets pass the least of 100 µs and the times to the timers. -/
theorem le_idleTime_iff {n : Nat} {s : State} :
    n ≤ idleTime s ↔ n ≤ 100 ∧ ∀ t ∈ timers s, n ≤ t.1 - s.perf.now := by
  have least : (100 :: (timers s).map fun t => t.1 - s.perf.now).min? = some (idleTime s) := by
    rw [List.min?_cons', List.foldl_map]
    rfl
  rw [List.le_min?_iff least, List.forall_mem_cons, List.forall_mem_map]

/-- With no command due time does pass, and not past the next timer. -/
theorem idleTime_bounds {s : State} (noneDue : dueCommands s = []) :
    1 ≤ idleTime s ∧ idleTime s ≤ 100 ∧ ∀ t ∈ timers s, s.perf.now + idleTime s ≤ t.1 := by
  obtain ⟨short, early⟩ := le_idleTime_iff.1 (Nat.le_refl (idleTime s))
  refine ⟨le_idleTime_iff.2 ⟨by decide, fun t set => Nat.sub_pos_of_lt (now_lt_timer noneDue set)⟩, short,
    fun t set => ?_⟩
  have ahead := now_lt_timer noneDue set
  have fits := early t set
  omega

/-! ### The step on an empty queue (log 5) -/

theorem step_front (c : Instr) (rest : List Instr) (s : State) :
    step { s with pending := c :: rest } = exec c { s with pending := rest } := rfl

theorem step_empty {s : State} (empty : s.pending = []) : step s = takeDue (dueCommands s) s := by
  rw [step, empty]

/-- Of several commands due the free value picks one by its place. -/
theorem takeDue_several {due : List Instr} (several : 2 ≤ due.length) (s : State) :
    ∃ c, due[Config.dueChoice s.freeCount % due.length]? = some c
      ∧ takeDue due s = exec c { s with freeCount := s.freeCount + 1 } := by
  have inside : Config.dueChoice s.freeCount % due.length < due.length := Nat.mod_lt _ (by omega)
  refine ⟨due[Config.dueChoice s.freeCount % due.length], List.getElem?_eq_getElem inside, ?_⟩
  match due with
  | [] | [_] => simp at several
  | c :: d :: rest =>
    have picked : (c :: d :: rest).getD (Config.dueChoice s.freeCount % (c :: d :: rest).length) c
        = (c :: d :: rest)[Config.dueChoice s.freeCount % (c :: d :: rest).length] := by
      rw [List.getD_eq_getElem?_getD, List.getElem?_eq_getElem inside, Option.getD_some]
    exact congrArg (exec · _) picked

/-! ### The statement (O1) -/

/-- Settles O1: by what waits in the queue, and on an empty queue by how many commands are due. -/
theorem stepTakesFrontOrIdles : Obligations.StepTakesFrontOrIdles := by
  refine ⟨step_front, fun s empty noneDue => ⟨?_, advance_now _ _, idleTime_bounds noneDue⟩,
    fun c s empty oneDue => ?_, fun s empty several => ?_, fun c s => mem_dueCommands⟩
  · rw [step_empty empty, noneDue, takeDue]
  · rw [step_empty empty, oneDue, takeDue]
  · rw [step_empty empty]
    exact takeDue_several several s

end Sys2Proof.Machine
end

section
/-! PROOFS. The books of the instrument: the records of keys, pedals and wait list in agreement, the units in use, and the strikes
accounted for, as a change of one key or of one pedal leaves them (R85, R118, R119, R136, R137). -/

namespace Sys2Proof.Machine

/-! ### The books, key by key and pedal by pedal -/

/-- The requesters that wait, in list order. -/
def Instrument.waiting (i : Instrument) : List Requester := i.waitList.map WaitEntry.requester

/-- A key's record agrees with its place in the wait list: it waits there exactly in WAIT, it has an armed strike exactly in ARMED and
WAIT, and a pending strike stands where it will be armed (R85, R95, R136). -/
structure KeyAgrees (waits : Prop) (r : KeyRecord) : Prop where
  waits_iff : waits ↔ r.state = .wait
  armed_iff : r.armed.isSome = true ↔ r.state = .armed ∨ r.state = .wait
  pending : r.pending.isSome = true → r.state ≠ .rest ∧ r.state ≠ .hold ∧ (r.state = .shed → r.returnEnd.isSome = true)

/-- A pedal's record agrees with its place in the wait list: it waits there exactly while it has a request moment, held by someone, and
its assist runs in GOING-UP alone (R119, R136, R139). -/
structure PedalAgrees (waits : Prop) (r : PedalRecord) : Prop where
  waits_iff : waits ↔ r.requestMoment.isSome = true
  held : r.requestMoment.isSome = true → r.holders.isEmpty = false
  assist : r.assistEnd.isSome = true → r.state = .goingUp

/-- The strikes fired, merged, dropped and discarded (R118). -/
def Instrument.closed (i : Instrument) : Counter := i.fired + i.merged + i.dropped + i.discarded

/-- The books of the instrument with `b` accepted strikes that stand at no key: its records agree, the units in use are the charges, and
every accepted strike is one of the `b`, at a key, or closed (R118, R137). -/
structure Sound (b : Counter) (i : Instrument) : Prop where
  once : i.waiting.Nodup
  key : ∀ k : Key, KeyAgrees (.key k ∈ i.waiting) i.keys[k]
  pedal : ∀ d : PedalName, PedalAgrees (.pedal d ∈ i.waiting) (i.pedal d)
  units : i.unitsInUse = chargesOf i
  strikes : i.accepted = i.closed + BitVec.ofNat 32 (keyStrikes i) + b

theorem sound_iff (b : Counter) (i : Instrument) :
    Sound b i ↔ instrumentCoherent i ∧ i.accepted = i.closed + BitVec.ofNat 32 (keyStrikes i) + b := by
  constructor
  · intro sound
    exact ⟨⟨sound.once, fun k => (sound.key k).waits_iff, fun k => (sound.key k).armed_iff, fun k => (sound.key k).pending,
      fun d => (sound.pedal d).waits_iff, fun d => (sound.pedal d).held, fun d => (sound.pedal d).assist, sound.units⟩,
      sound.strikes⟩
  · rintro ⟨⟨once, waits, armed, pending, asks, held, assist, units⟩, strikes⟩
    exact ⟨once, fun k => ⟨waits k, armed k, pending k⟩, fun d => ⟨asks d, held d, assist d⟩, units, strikes⟩

/-- A coherent instrument has its books with the accepted strikes that are neither closed nor at a key. -/
theorem sound_of_coherent {i : Instrument} (coherent : instrumentCoherent i) :
    Sound (i.accepted - i.closed - BitVec.ofNat 32 (keyStrikes i)) i :=
  (sound_iff _ i).2 ⟨coherent, by ring⟩

theorem Sound.coherent {b : Counter} {i : Instrument} (sound : Sound b i) : instrumentCoherent i :=
  ((sound_iff b i).1 sound).1

/-! ### Sums over the keys -/

/-- The sum over the 88 keys once one record has been replaced. -/
theorem sum_set (f : KeyRecord → Nat) (keys : Vector KeyRecord 88) (k : Key) (r : KeyRecord) :
    ((keys.set k r).toList.map f).sum + f keys[k] = (keys.toList.map f).sum + f r := by
  have inside : k.val < (keys.toList.map f).length := by simp
  have split : (keys.toList.map f).sum
      = ((keys.toList.map f).take k.val).sum + f keys[k] + ((keys.toList.map f).drop (k.val + 1)).sum := by
    conv_lhs => rw [← List.set_getElem_self inside, List.sum_set, if_pos inside]
    simp
  have replaced : ((keys.set k r).toList.map f).sum
      = ((keys.toList.map f).take k.val).sum + f r + ((keys.toList.map f).drop (k.val + 1)).sum := by
    rw [Vector.toList_set, List.map_set, List.sum_set, if_pos inside]
  omega

theorem Sound.keyAgrees {b : Counter} {i : Instrument} (sound : Sound b i) {k : Key} {r : KeyRecord}
    (was : i.keys[k] = r) : KeyAgrees (.key k ∈ i.waiting) r :=
  was ▸ sound.key k

/-- A term of the sum over the keys is no more than the sum. -/
theorem le_sum (f : KeyRecord → Nat) (keys : Vector KeyRecord 88) (k : Key) :
    f keys[k] ≤ (keys.toList.map f).sum :=
  List.le_sum_of_mem (List.mem_map_of_mem (by simp))

theorem getElem_set_ne {keys : Vector KeyRecord 88} {k j : Key} (ne : j ≠ k) (r : KeyRecord) :
    (keys.set k r)[j] = keys[j] := by
  have apart : k.val ≠ j.val := fun same => ne (Fin.ext same.symm)
  simp [apart]

theorem getElem_set_key (keys : Vector KeyRecord 88) (k : Key) (r : KeyRecord) : (keys.set k r)[k] = r := by
  simp

/-! ### A change that leaves the books -/

/-- Two instruments with the same books: they differ in what was reported alone (counts of losses and notices, the monitor level, the
damper's report). -/
def SameBooks (i j : Instrument) : Prop :=
  j.keys = i.keys ∧ j.damper = i.damper ∧ j.shift = i.shift ∧ j.waitList = i.waitList ∧ j.unitsInUse = i.unitsInUse
    ∧ j.accepted = i.accepted ∧ j.closed = i.closed

theorem Sound.same {b : Counter} {i j : Instrument} (sound : Sound b i) (same : SameBooks i j) : Sound b j := by
  obtain ⟨keys, damper, shift, list, units, accepted, closed⟩ := same
  have pedal : j.pedal = i.pedal := by
    funext d
    cases d
    · exact damper
    · exact shift
  have waiting : j.waiting = i.waiting := by rw [Instrument.waiting, Instrument.waiting, list]
  refine ⟨waiting ▸ sound.once, fun k => ?_, fun d => ?_, ?_, ?_⟩
  · rw [waiting, keys]; exact sound.key k
  · rw [waiting, pedal]; exact sound.pedal d
  · rw [units, sound.units, chargesOf, chargesOf, keys, damper, shift]
  · rw [accepted, closed, keyStrikes, keys]; exact sound.strikes

/-! ### The change of one key, or of one pedal -/

/-- The books after a change of one key: the wait list changes by that key alone, the new record agrees with it, the units follow the
charge, and the strikes that have come, gone or been closed are counted. -/
theorem Sound.changeKey {b b' : Counter} {i j : Instrument} (sound : Sound b i) {k : Key} {old : KeyRecord}
    (was : i.keys[k] = old) (r : KeyRecord) (keys : j.keys = i.keys.set k r) (damper : j.damper = i.damper)
    (shift : j.shift = i.shift) (once : j.waiting.Nodup) (others : ∀ q, q ≠ .key k → (q ∈ j.waiting ↔ q ∈ i.waiting))
    (agrees : KeyAgrees (.key k ∈ j.waiting) r) (units : j.unitsInUse + old.charge = i.unitsInUse + r.charge)
    (strikes : j.accepted + i.closed + BitVec.ofNat 32 old.strikes + b
      = i.accepted + j.closed + BitVec.ofNat 32 r.strikes + b') : Sound b' j := by
  subst was
  have pedal : j.pedal = i.pedal := by
    funext d
    cases d
    · exact damper
    · exact shift
  refine ⟨once, fun x => ?_, fun d => ?_, ?_, ?_⟩
  · rw [keys]
    by_cases same : x = k
    · subst same; rwa [getElem_set_key]
    · have apart := sound.key x
      have other := others (.key x) (by simpa using same)
      rw [getElem_set_ne same]
      exact ⟨other.trans apart.waits_iff, apart.armed_iff, apart.pending⟩
  · have other := others (.pedal d) (by simp)
    have stands := sound.pedal d
    rw [pedal]
    exact ⟨other.trans stands.waits_iff, stands.held, stands.assist⟩
  · have replaced := sum_set KeyRecord.charge i.keys k r
    have before := sound.units
    rw [chargesOf] at before ⊢
    rw [keys, damper, shift]
    omega
  · have replaced : BitVec.ofNat 32 (keyStrikes j) + BitVec.ofNat 32 i.keys[k].strikes
        = BitVec.ofNat 32 (keyStrikes i) + BitVec.ofNat 32 r.strikes := by
      rw [keyStrikes, keyStrikes, keys, ← BitVec.ofNat_add, ← BitVec.ofNat_add, sum_set KeyRecord.strikes i.keys k r]
    have before := sound.strikes
    linear_combination strikes - replaced + before

/-- The books after a change of one pedal that neither closes nor moves a strike. -/
theorem Sound.changePedal {b : Counter} {i j : Instrument} (sound : Sound b i) (d : PedalName) (r : PedalRecord)
    (keys : j.keys = i.keys) (self : j.pedal d = r) (other : ∀ x, x ≠ d → j.pedal x = i.pedal x)
    (once : j.waiting.Nodup) (others : ∀ q, q ≠ .pedal d → (q ∈ j.waiting ↔ q ∈ i.waiting))
    (agrees : PedalAgrees (.pedal d ∈ j.waiting) r)
    (units : j.unitsInUse + (i.pedal d).charge = i.unitsInUse + r.charge)
    (accepted : j.accepted = i.accepted) (closed : j.closed = i.closed) : Sound b j := by
  refine ⟨once, fun k => ?_, fun x => ?_, ?_, ?_⟩
  · have stands := sound.key k
    rw [keys]
    exact ⟨(others (.key k) (by simp)).trans stands.waits_iff, stands.armed_iff, stands.pending⟩
  · by_cases same : x = d
    · subst same; rwa [self]
    · have stands := sound.pedal x
      rw [other x same]
      exact ⟨(others (.pedal x) (by simpa using same)).trans stands.waits_iff, stands.held, stands.assist⟩
  · have before := sound.units
    rw [chargesOf] at before ⊢
    rw [keys]
    cases d with
    | damper =>
      have stays : j.shift = i.shift := other .shift (by decide)
      have changed : j.damper = r := self
      rw [stays, changed]
      simp only [Instrument.pedal] at units
      omega
    | shift =>
      have stays : j.damper = i.damper := other .damper (by decide)
      have changed : j.shift = r := self
      rw [stays, changed]
      simp only [Instrument.pedal] at units
      omega
  · rw [accepted, closed, keyStrikes, keys]; exact sound.strikes

theorem Sound.charge_le {b : Counter} {i : Instrument} (sound : Sound b i) {k : Key} {r : KeyRecord}
    (was : i.keys[k] = r) : r.charge ≤ i.unitsInUse := by
  subst was
  have part := le_sum KeyRecord.charge i.keys k
  rw [sound.units, chargesOf]
  omega

theorem Sound.pedalCharge_le {b : Counter} {i : Instrument} (sound : Sound b i) (d : PedalName) :
    (i.pedal d).charge ≤ i.unitsInUse := by
  rw [sound.units, chargesOf]
  cases d <;> simp only [Instrument.pedal] <;> omega

/-- A change of one key with the wait list as it was. -/
theorem Sound.setKey {b b' : Counter} {i j : Instrument} (sound : Sound b i) {k : Key} {old : KeyRecord}
    (was : i.keys[k] = old) (r : KeyRecord) (keys : j.keys = i.keys.set k r) (damper : j.damper = i.damper)
    (shift : j.shift = i.shift) (list : j.waitList = i.waitList) (agrees : KeyAgrees (old.state = .wait) r)
    (units : j.unitsInUse + old.charge = i.unitsInUse + r.charge)
    (strikes : j.accepted + i.closed + BitVec.ofNat 32 old.strikes + b
      = i.accepted + j.closed + BitVec.ofNat 32 r.strikes + b') : Sound b' j := by
  subst was
  have waiting : j.waiting = i.waiting := by rw [Instrument.waiting, Instrument.waiting, list]
  refine sound.changeKey rfl r keys damper shift (waiting ▸ sound.once) (fun _ _ => by rw [waiting]) ?_ units strikes
  exact ⟨by rw [waiting]; exact (sound.key k).waits_iff.trans agrees.waits_iff, agrees.armed_iff, agrees.pending⟩

/-! ### The wait list (R140, R145) -/

theorem waiting_withdraw (q : Requester) (i : Instrument) :
    (withdraw q i).waiting = i.waiting.filter fun x => decide (x ≠ q) := by
  simp [Instrument.waiting, withdraw, List.filter_map, Function.comp_def]

theorem insertWait_perm (e : WaitEntry) (l : List WaitEntry) : (insertWait e l).Perm (e :: l) := by
  obtain ⟨front, back, rfl, placed, -, -⟩ := insertWait_split e l
  rw [placed]
  exact List.perm_middle

theorem waiting_placeRequest (m : Moment) (q : Requester) (i : Instrument) :
    (placeRequest m q i).waiting.Perm (q :: i.waiting) :=
  (insertWait_perm _ _).map WaitEntry.requester

end Sys2Proof.Machine
end

section
/-! PROOFS. The operations of keys and pedals keep the books of the instrument (R85, R118, R119, R136, R137). -/

namespace Sys2Proof.Machine

/-! ### What the state of a key says of its strikes -/

theorem KeyAgrees.armed_none {waits : Prop} {r : KeyRecord} (agrees : KeyAgrees waits r)
    (state : ¬ (r.state = .armed ∨ r.state = .wait)) : r.armed = none := by
  cases armed : r.armed with
  | none => rfl
  | some st => exact absurd (agrees.armed_iff.1 (by simp [armed])) state

theorem KeyAgrees.pending_none {waits : Prop} {r : KeyRecord} (agrees : KeyAgrees waits r)
    (state : r.state = .rest ∨ r.state = .hold ∨ (r.state = .shed ∧ r.returnEnd = none)) : r.pending = none := by
  cases pending : r.pending with
  | none => rfl
  | some st =>
    obtain ⟨notRest, notHold, returns⟩ := agrees.pending (by simp [pending])
    rcases state with rest | hold | ⟨shed, stopped⟩
    · exact absurd rest notRest
    · exact absurd hold notHold
    · simpa [stopped] using returns shed

theorem strikes_eq (r : KeyRecord) :
    BitVec.ofNat 32 r.strikes = countIf r.armed.isSome + countIf r.pending.isSome := by
  cases h : r.armed <;> cases g : r.pending <;> simp [KeyRecord.strikes, countIf, h, g]

@[simp] theorem countIf_true : countIf true = 1 := rfl

@[simp] theorem countIf_false : countIf false = 0 := rfl

/-! ### A pass (R95, R96, R99, R106, R124, R141) -/

section
variable {b : Counter} {i : Instrument} {m : Moment}

theorem shedKey_sound (sound : Sound b i) {k : Key} (holds : i.keys[k].state = .hold) : Sound b (shedKey m k i) := by
  obtain ⟨r, was⟩ : ∃ r, i.keys[k] = r := ⟨_, rfl⟩
  rw [was] at holds
  have stands := sound.keyAgrees was
  have armed := stands.armed_none (by simp [holds])
  have pending := stands.pending_none (.inr (.inl holds))
  have charged := sound.charge_le was
  refine sound.setKey was { r.switchOff m k with state := .shed } (by subst was; rfl) rfl rfl rfl ⟨?_, ?_, ?_⟩ ?_ rfl
  · simp [holds]
  · simp [KeyRecord.switchOff, armed]
  · simp [KeyRecord.switchOff, pending]
  · simp only [KeyRecord.charge, holds] at charged ⊢
    simp only [shedKey, setKey_unitsInUse, returnUnits_unitsInUse]
    omega

/-- The grant of a key whose entry has left the wait list. -/
theorem grantKey_sound {l : List WaitEntry} {e : WaitEntry} {k : Key} (sound : Sound b i) (list : i.waitList = e :: l)
    (asks : e.requester = .key k) : Sound b (grantKey m k e.requestMoment { i with waitList := l }) := by
  obtain ⟨r, was⟩ : ∃ r, i.keys[k] = r := ⟨_, rfl⟩
  have stands := sound.keyAgrees was
  have waiting : i.waiting = .key k :: l.map WaitEntry.requester := by simp [Instrument.waiting, list, asks]
  have once := sound.once
  rw [waiting, List.nodup_cons] at once
  have state : r.state = .wait := stands.waits_iff.1 (by simp [waiting])
  obtain ⟨st, armed⟩ := Option.isSome_iff_exists.1 (stands.armed_iff.2 (.inr state))
  have fired : Sound b (Sys2Proof.Machine.setKey k
      { r with
        state := .drive
        armed := none
        requestMoment := none
        driveEnd := some (m.now + m.map.keys[k].driveLength * 100)
        channel := r.channel.switch m.now (.forward st.duty) }
      { i with waitList := l, unitsInUse := i.unitsInUse + 3, fired := i.fired + 1 }) := by
    refine sound.changeKey was _ rfl rfl rfl once.2 ?_ ⟨?_, ?_, ?_⟩ ?_ ?_
    · intro q other
      rw [waiting]
      simp [Instrument.waiting, other]
    · simpa [Instrument.waiting] using once.1
    · simp
    · simp
    · simp [KeyRecord.charge, state]
    · simp only [strikes_eq, Instrument.closed, setKey_accepted, setKey_fired, setKey_merged, setKey_dropped,
        setKey_discarded, armed, Option.isSome_some, Option.isSome_none, countIf_true, countIf_false]
      ring
  unfold grantKey
  dsimp only
  rw [was, armed]
  dsimp only
  split
  · exact fired.same ⟨rfl, rfl, rfl, rfl, rfl, rfl, rfl⟩
  · exact fired

theorem setPedal_pedal_ne {d x : PedalName} (ne : x ≠ d) (r : PedalRecord) (i : Instrument) :
    (setPedal d r i).pedal x = i.pedal x := by
  cases d <;> cases x
  case damper.damper | shift.shift => exact absurd rfl ne
  all_goals rfl

theorem enterDown_eq (m : Moment) (d : PedalName) (i : Instrument) :
    enterDown m d i = { setPedal d
      { i.pedal d with
        state := .down
        travel := none
        assistEnd := none
        bridge := (i.pedal d).bridge.switch m.now (.forward (m.map.pedal d).holdDuty) } (returnUnits 4 i) with
      damperDown := if d = .damper then true else i.damperDown } := by
  cases d <;> rfl

theorem enterDown_sound (sound : Sound b i) {d : PedalName} (goesDown : (i.pedal d).state = .goingDown) :
    Sound b (enterDown m d i) := by
  obtain ⟨r, was⟩ : ∃ r, i.pedal d = r := ⟨_, rfl⟩
  have stands := sound.pedal d
  have charged := sound.pedalCharge_le d
  rw [was] at goesDown stands charged
  rw [enterDown_eq, was]
  refine Sound.same (i := setPedal d _ (returnUnits 4 i)) ?_ ⟨rfl, rfl, rfl, rfl, rfl, rfl, rfl⟩
  refine sound.changePedal d _ (by simp) (setPedal_pedal d _ _) (fun x ne => setPedal_pedal_ne ne _ _)
    (by simpa [Instrument.waiting] using sound.once) (by simp [Instrument.waiting]) ⟨?_, stands.held, by simp⟩ ?_ (by simp)
    (by simp [Instrument.closed])
  · simpa [Instrument.waiting] using stands.waits_iff
  · simp only [PedalRecord.charge, goesDown] at charged
    simp only [PedalRecord.charge, was, goesDown, setPedal_unitsInUse, returnUnits_unitsInUse]
    omega

/-- The grant of a pedal whose entry has left the wait list. -/
theorem grantPedal_sound {l : List WaitEntry} {e : WaitEntry} {d : PedalName} (sound : Sound b i)
    (list : i.waitList = e :: l) (asks : e.requester = .pedal d) :
    Sound b (grantPedal m d { i with waitList := l }) := by
  obtain ⟨r, was⟩ : ∃ r, i.pedal d = r := ⟨_, rfl⟩
  have kept : ({ i with waitList := l } : Instrument).pedal d = r := by cases d <;> exact was
  have stands := sound.pedal d
  have charged := sound.pedalCharge_le d
  have waiting : i.waiting = .pedal d :: l.map WaitEntry.requester := by simp [Instrument.waiting, list, asks]
  have once := sound.once
  rw [waiting, List.nodup_cons] at once
  rw [was] at stands charged
  unfold grantPedal
  dsimp only
  rw [kept]
  have granted : ∀ travel bridge, Sound b (setPedal d
      { r with state := .goingDown, requestMoment := none, travel := travel, assistEnd := none, bridge := bridge }
      { i with waitList := l, unitsInUse := i.unitsInUse + 6 - r.charge }) := by
    intro travel bridge
    refine sound.changePedal d _ (by simp) (setPedal_pedal d _ _)
      (fun x ne => (setPedal_pedal_ne ne _ _).trans (by cases x <;> rfl))
      (by simpa [Instrument.waiting] using once.2) ?_ ⟨?_, by simp, by simp⟩ ?_ (by simp) (by simp [Instrument.closed])
    · intro q other
      rw [waiting]
      simp [Instrument.waiting, other]
    · simpa [Instrument.waiting] using once.1
    · rw [was, setPedal_unitsInUse]
      simp only [PedalRecord.charge] at charged ⊢
      omega
  split
  · exact enterDown_sound (granted _ _) (by rw [setPedal_pedal])
  · exact granted _ _

theorem pass_sound (sound : Sound b i) : Sound b (pass m i) := by
  refine pass_induct (P := Sound b) (fun i k sound _ holds => shedKey_sound sound holds) (fun i e l sound list _ => ?_) sound
  unfold grant
  split
  · next k asks => exact grantKey_sound sound list asks
  · next d asks => exact grantPedal_sound sound list asks

/-! ### A key that asks (R95, R139) -/

theorem askOnly_sound (sound : Sound b i) {k : Key} (arms : i.keys[k].state = .armed) : Sound b (askOnly m k i) := by
  obtain ⟨r, was⟩ : ∃ r, i.keys[k] = r := ⟨_, rfl⟩
  have stands := sound.keyAgrees was
  rw [was] at arms
  have absent : .key k ∉ i.waiting := fun waits => by simpa [arms] using stands.waits_iff.1 waits
  unfold askOnly
  rw [was]
  have placed := waiting_placeRequest m (.key k) (setKey k { r with state := .wait, requestMoment := some m.now } i)
  refine sound.changeKey was _ rfl rfl rfl ?_ ?_ ⟨?_, ?_, by simp⟩ ?_ ?_
  · exact placed.nodup_iff.2 (List.nodup_cons.2 ⟨absent, sound.once⟩)
  · intro q other
    rw [placed.mem_iff, List.mem_cons]
    simp [other, Instrument.waiting]
  · simp [placed.mem_iff]
  · simpa [arms] using stands.armed_iff
  · simp [KeyRecord.charge, arms]
  · rfl

theorem askIfDueOnly_sound (sound : Sound b i) {k : Key} : Sound b (askIfDueOnly m k i) := by
  unfold askIfDueOnly
  split
  · next arms _ =>
    split
    · exact askOnly_sound sound arms
    · exact sound
  · exact sound

theorem askIfDue_sound (sound : Sound b i) {k : Key} : Sound b (askIfDue m k i) := by
  unfold askIfDue
  split
  · next arms _ =>
    split
    · exact pass_sound (askOnly_sound sound arms)
    · exact sound
  · exact sound

end

end Sys2Proof.Machine
end

section
/-! PROOFS. The strikes that come to a key keep the books of the instrument (R85 to R118). -/

namespace Sys2Proof.Machine

section
variable {b : Counter} {i : Instrument} {m : Moment}

/-! ### A strike arrives (R87, R91 to R94): one strike less stands outside the keys -/

/-- A strike pends at a key that will arm it. -/
theorem pend_sound (sound : Sound (b + 1) i) {k : Key} (new : Strike)
    (busy : i.keys[k].state = .armed ∨ i.keys[k].state = .wait ∨ i.keys[k].state = .drive ∨ i.keys[k].state = .returning
      ∨ (i.keys[k].state = .shed ∧ i.keys[k].returnEnd.isSome = true)) :
    Sound b (pend k new i) := by
  obtain ⟨r, was⟩ : ∃ r, i.keys[k] = r := ⟨_, rfl⟩
  have stands := sound.keyAgrees was
  unfold pend
  dsimp only
  rw [was] at busy ⊢
  have waits : r.state ≠ .rest ∧ r.state ≠ .hold ∧ (r.state = .shed → r.returnEnd.isSome = true) := by
    rcases busy with state | state | state | state | ⟨state, returns⟩
    case inr.inr.inr.inr => simp [state, returns]
    all_goals simp [state]
  split
  · next pending =>
    refine sound.setKey was _ rfl rfl rfl rfl ⟨Iff.rfl, stands.armed_iff, fun _ => waits⟩ rfl ?_
    simp only [strikes_eq, Instrument.closed, setKey_accepted, setKey_fired, setKey_merged, setKey_dropped, setKey_discarded,
      pending, Option.isSome_some, Option.isSome_none, countIf_true, countIf_false]
    ring
  · next st pending =>
    refine sound.setKey was { r with pending := some (st.merge new st.fire) } rfl rfl rfl rfl
      ⟨Iff.rfl, stands.armed_iff, fun _ => waits⟩ rfl ?_
    simp only [strikes_eq, Instrument.closed, setKey_accepted, setKey_fired, setKey_dropped, setKey_discarded,
      pending, Option.isSome_some, countIf_true]
    ring

/-- A strike is armed at a key that has none. -/
theorem arm_sound (sound : Sound (b + 1) i) {k : Key} (new : Strike)
    (free : i.keys[k].state = .rest ∨ (i.keys[k].state = .shed ∧ i.keys[k].returnEnd = none)) : Sound b (arm k new i) := by
  obtain ⟨r, was⟩ : ∃ r, i.keys[k] = r := ⟨_, rfl⟩
  have stands := sound.keyAgrees was
  rw [was] at free
  have state : r.state = .rest ∨ r.state = .shed := free.imp_right And.left
  have armed := stands.armed_none (by rcases state with state | state <;> simp [state])
  have pending := stands.pending_none (free.imp_right .inr)
  unfold arm
  rw [was]
  refine sound.setKey was _ rfl rfl rfl rfl ⟨?_, ?_, ?_⟩ ?_ ?_
  · rcases state with state | state <;> simp [state]
  · simp
  · simp [pending]
  · rcases state with state | state <;> simp [KeyRecord.charge, state]
  · simp only [strikes_eq, Instrument.closed, setKey_accepted, setKey_fired, setKey_merged, setKey_dropped, setKey_discarded,
      armed, Option.isSome_some, Option.isSome_none, countIf_true, countIf_false]
    ring

/-- A strike at a key in ARMED joins the armed strike, or pends. -/
theorem placeArmed_sound (sound : Sound (b + 1) i) {k : Key} (new : Strike) (arms : i.keys[k].state = .armed) :
    Sound b (placeArmed k new i) := by
  obtain ⟨r, was⟩ : ∃ r, i.keys[k] = r := ⟨_, rfl⟩
  have stands := sound.keyAgrees was
  have state : r.state = .armed := was ▸ arms
  obtain ⟨st, armed⟩ := Option.isSome_iff_exists.1 (stands.armed_iff.2 (.inl state))
  unfold placeArmed
  dsimp only
  rw [was, armed]
  dsimp only
  split
  · refine sound.setKey was { r with armed := some (st.merge new (min st.fire new.fire)) } rfl rfl rfl rfl
      ⟨Iff.rfl, ?_, stands.pending⟩ rfl ?_
    · simp [state]
    · simp only [strikes_eq, Instrument.closed, setKey_accepted, setKey_fired, setKey_dropped, setKey_discarded,
        armed, Option.isSome_some, countIf_true]
      ring
  · exact pend_sound sound new (.inl arms)

/-- A strike re-strikes a key in HOLD. -/
theorem restrike_sound (sound : Sound (b + 1) i) {k : Key} (new : Strike) (holds : i.keys[k].state = .hold) :
    Sound b (restrike m k new i) := by
  obtain ⟨r, was⟩ : ∃ r, i.keys[k] = r := ⟨_, rfl⟩
  rw [was] at holds
  have stands := sound.keyAgrees was
  have armed := stands.armed_none (by simp [holds])
  have pending := stands.pending_none (.inr (.inl holds))
  have charged := sound.charge_le was
  unfold restrike
  rw [was]
  refine pass_sound (sound.setKey was _ rfl rfl rfl rfl ⟨?_, ?_, ?_⟩ ?_ ?_)
  · simp [holds]
  · simp [KeyRecord.switchOff, armed]
  · simp
  · simp only [KeyRecord.charge, holds, setKey_unitsInUse, returnUnits_unitsInUse] at charged ⊢
    omega
  · simp only [strikes_eq, Instrument.closed, setKey_accepted, setKey_fired, setKey_merged, setKey_dropped, setKey_discarded,
      returnUnits_accepted, returnUnits_fired, returnUnits_merged, returnUnits_dropped, returnUnits_discarded,
      KeyRecord.switchOff, pending, Option.isSome_some, Option.isSome_none, countIf_true, countIf_false]
    ring

theorem place_sound (sound : Sound (b + 1) i) {k : Key} (new : Strike) : Sound b (place m k new i) := by
  unfold place
  split
  · next state => exact arm_sound sound new (.inl state)
  · next state => exact placeArmed_sound sound new state
  · next state => exact pend_sound sound new (.inr (.inl state))
  · next state => exact pend_sound sound new (.inr (.inr (.inl state)))
  · next state => exact restrike_sound sound new state
  · next state => exact pend_sound sound new (.inr (.inr (.inr (.inl state))))
  · next state =>
    split
    · next returns => exact pend_sound sound new (.inr (.inr (.inr (.inr ⟨state, returns⟩))))
    · next stopped => exact arm_sound sound new (.inr ⟨state, by simpa using stopped⟩)

/-- A change of a key's holders alone. -/
theorem holders_sound (sound : Sound b i) (k : Key) (holders : Origins) :
    Sound b (setKey k { i.keys[k] with holders := holders } i) := by
  have stands := sound.key k
  exact sound.setKey rfl _ rfl rfl rfl rfl ⟨Iff.rfl, stands.armed_iff, stands.pending⟩ rfl rfl

theorem countDiscarded_sound {n : Nat} (sound : Sound (b + BitVec.ofNat 32 n) i) : Sound b (countDiscarded n i) := by
  refine ⟨sound.once, sound.key, sound.pedal, sound.units, ?_⟩
  have before := sound.strikes
  simp only [Instrument.closed, countDiscarded_accepted, countDiscarded_fired, countDiscarded_merged, countDiscarded_dropped,
    countDiscarded_discarded, keyStrikes, countDiscarded_keys] at before ⊢
  rw [before]
  ring

theorem arrive_sound (sound : Sound (b + 1) i) (x : Expression) (k : Key) (a : Arrival) : Sound b (arrive x k a m i) := by
  unfold arrive
  split
  · exact askIfDue_sound (place_sound (holders_sound sound k _) _)
  · exact countDiscarded_sound sound

/-! ### Drive end, release, return expiry (R100, R102, R104, R107) -/

theorem endDrive_sound (sound : Sound b i) {k : Key} (drives : i.keys[k].state = .drive) : Sound b (endDrive k m i) := by
  obtain ⟨r, was⟩ : ∃ r, i.keys[k] = r := ⟨_, rfl⟩
  rw [was] at drives
  have stands := sound.keyAgrees was
  have armed := stands.armed_none (by simp [drives])
  have charged := sound.charge_le was
  unfold endDrive
  dsimp only
  rw [was]
  simp only [KeyRecord.charge, drives] at charged
  split
  · next quiet =>
    simp only [Bool.and_eq_true, Option.isNone_iff_eq_none] at quiet
    refine pass_sound (sound.setKey was _ rfl rfl rfl rfl ⟨by simp [drives], by simp [armed], by simp [quiet.1]⟩ ?_ rfl)
    simp only [KeyRecord.charge, drives, setKey_unitsInUse, returnUnits_unitsInUse]
    omega
  · refine pass_sound (sound.setKey was _ rfl rfl rfl rfl
      ⟨by simp [drives], by simp [KeyRecord.switchOff, armed], by simp⟩ ?_ rfl)
    simp only [KeyRecord.charge, drives, setKey_unitsInUse, returnUnits_unitsInUse]
    omega

theorem emptiedOnly_sound (sound : Sound b i) {k : Key} : Sound b (emptiedOnly m k i) := by
  obtain ⟨r, was⟩ : ∃ r, i.keys[k] = r := ⟨_, rfl⟩
  have stands := sound.keyAgrees was
  have charged := sound.charge_le was
  unfold emptiedOnly
  dsimp only
  rw [was]
  split
  · next holds =>
    have armed := stands.armed_none (by simp [holds])
    refine sound.setKey was _ rfl rfl rfl rfl ⟨by simp [holds], by simp [KeyRecord.switchOff, armed], by simp⟩ ?_ rfl
    simp only [KeyRecord.charge, holds, setKey_unitsInUse, returnUnits_unitsInUse] at charged ⊢
    omega
  · next shed =>
    have armed := stands.armed_none (by simp [shed])
    refine sound.setKey was _ rfl rfl rfl rfl ⟨?_, ?_, ?_⟩ ?_ rfl
    · cases r.returnEnd <;> simp [shed]
    · cases r.returnEnd <;> simp [armed]
    · intro pends
      have returns := (stands.pending pends).2.2 shed
      simp [returns]
    · cases r.returnEnd <;> simp [KeyRecord.charge, shed]
  · exact sound

theorem release_sound (sound : Sound b i) (k : Key) (o : Origin) : Sound b (release k o m i) := by
  have left := holders_sound sound k (i.keys[k].holders.erase o)
  unfold release
  split
  · dsimp only
    split
    · split
      · exact pass_sound (emptiedOnly_sound left)
      · exact emptiedOnly_sound left
    · exact left
  · exact sound

/-- A pending strike is armed at a key that has left RETURN or SHED, or has lost its armed strike. -/
theorem promote_agrees {waits : Prop} {r : KeyRecord} (state : ¬ waits) (pt : Nat) (st : Strike) :
    KeyAgrees waits (r.promote pt st) :=
  ⟨by simpa [KeyRecord.promote] using state, by simp [KeyRecord.promote], by simp [KeyRecord.promote]⟩

theorem expireReturn_sound (sound : Sound b i) (k : Key) : Sound b (expireReturn k m i) := by
  obtain ⟨r, was⟩ : ∃ r, i.keys[k] = r := ⟨_, rfl⟩
  have stands := sound.keyAgrees was
  unfold expireReturn
  dsimp only
  rw [was]
  split
  · next st state pending =>
    have armed := stands.armed_none (by simp [state])
    refine askIfDue_sound (sound.setKey (j := setKey k _ i) was _ rfl rfl rfl rfl (promote_agrees (by simp [state]) _ _) ?_ ?_)
    · simp [KeyRecord.charge, KeyRecord.promote, state]
    · simp only [strikes_eq, KeyRecord.promote, armed, pending]
      ring!
  · next state pending =>
    have armed := stands.armed_none (by simp [state])
    refine sound.setKey was _ rfl rfl rfl rfl ⟨by simp [state], by simp [armed], by simp [pending]⟩ ?_ rfl
    simp [KeyRecord.charge, state]
  · next st state pending =>
    have armed := stands.armed_none (by simp [state])
    refine askIfDue_sound (sound.setKey (j := setKey k _ i) was _ rfl rfl rfl rfl (promote_agrees (by simp [state]) _ _) ?_ ?_)
    · simp [KeyRecord.charge, KeyRecord.promote, state]
    · simp only [strikes_eq, KeyRecord.promote, armed, pending]
      ring!
  · next notReturning notShed =>
    refine sound.setKey was _ rfl rfl rfl rfl ⟨Iff.rfl, stands.armed_iff, fun pends => ?_⟩ rfl rfl
    obtain ⟨notRest, notHold, -⟩ := stands.pending pends
    obtain ⟨st, pending⟩ := Option.isSome_iff_exists.1 pends
    exact ⟨notRest, notHold, fun shed => absurd pending (notShed st shed)⟩

end

end Sys2Proof.Machine
end

section
/-! PROOFS. The pauses, the cuts of the budget and the pedals that go down keep the books of the instrument (R67, R111, R122, R144). -/

namespace Sys2Proof.Machine

section
variable {b : Counter} {i : Instrument} {m : Moment}

/-! ### A strike is lost (R97, R98, R105, R110) -/

/-- A key in ARMED or WAIT that has lost its armed strike leaves the wait list, and rests or is armed again. -/
theorem Sound.loseKey {b' : Counter} {j : Instrument} (sound : Sound b i) {k : Key} {old : KeyRecord} (was : i.keys[k] = old)
    (state : old.state = .armed ∨ old.state = .wait) (r : KeyRecord) (keys : j.keys = i.keys.set k r)
    (damper : j.damper = i.damper) (shift : j.shift = i.shift)
    (list : j.waitList = i.waitList.filter fun e => decide (e.requester ≠ .key k)) (units : j.unitsInUse = i.unitsInUse)
    (next : (r.state = .rest ∧ r.armed = none ∨ r.state = .armed ∧ r.armed.isSome = true) ∧ r.pending = none)
    (strikes : j.accepted + i.closed + BitVec.ofNat 32 old.strikes + b
      = i.accepted + j.closed + BitVec.ofNat 32 r.strikes + b') : Sound b' j := by
  have waiting : j.waiting = i.waiting.filter fun x => decide (x ≠ .key k) := by
    rw [← waiting_withdraw, Instrument.waiting, Instrument.waiting, list, withdraw_waitList]
  have uncharged : old.charge = 0 := by rcases state with state | state <;> simp [KeyRecord.charge, state]
  obtain ⟨next, pending⟩ := next
  refine sound.changeKey was r keys damper shift (waiting ▸ sound.once.filter _) ?_ ?_ ?_ strikes
  · intro q other
    simp [waiting, other]
  · rcases next with ⟨rest, armed⟩ | ⟨arms, armed⟩
    · exact ⟨by simp [waiting, rest], by simp [rest, armed], by simp [pending]⟩
    · exact ⟨by simp [waiting, arms], by simp [arms, armed], by simp [pending]⟩
  · rw [units, uncharged]
    rcases next with ⟨rest, -⟩ | ⟨arms, -⟩
    · simp [KeyRecord.charge, rest]
    · simp [KeyRecord.charge, arms]

/-- The key of an entry that is dropped (R97). -/
theorem dropKey_sound (sound : Sound b i) {k : Key} (asks : .key k ∈ i.waiting) :
    Sound b (dropKeyOnly m k (withdraw (.key k) i)) := by
  obtain ⟨r, was⟩ : ∃ r, i.keys[k] = r := ⟨_, rfl⟩
  have stands := sound.keyAgrees was
  have state : r.state = .armed ∨ r.state = .wait := .inr (stands.waits_iff.1 asks)
  obtain ⟨st, armed⟩ := Option.isSome_iff_exists.1 (stands.armed_iff.2 state)
  unfold dropKeyOnly
  dsimp only
  simp only [raiseBoth_keys, withdraw_keys]
  rw [was]
  split
  · next st' pending =>
    refine askIfDueOnly_sound ?_
    refine sound.loseKey was state
      (KeyRecord.promote { r with armed := none, requestMoment := none, holders := .empty } m.pt st') rfl rfl rfl rfl rfl
      ⟨.inr ⟨rfl, rfl⟩, rfl⟩ ?_
    simp only [strikes_eq, KeyRecord.promote, Instrument.closed, setKey_accepted, setKey_fired, setKey_merged, setKey_dropped,
      setKey_discarded, raiseBoth_accepted, raiseBoth_fired, raiseBoth_merged, raiseBoth_dropped, raiseBoth_discarded,
      withdraw_accepted, withdraw_fired, withdraw_merged, withdraw_dropped, withdraw_discarded, armed, pending,
      Option.isSome_some, Option.isSome_none, countIf_true, countIf_false]
    ring
  · next pending =>
    refine sound.loseKey was state { r with state := .rest, armed := none, requestMoment := none, holders := .empty }
      rfl rfl rfl rfl rfl ⟨.inl ⟨rfl, rfl⟩, pending⟩ ?_
    simp only [strikes_eq, Instrument.closed, setKey_accepted, setKey_fired, setKey_merged, setKey_dropped,
      setKey_discarded, raiseBoth_accepted, raiseBoth_fired, raiseBoth_merged, raiseBoth_dropped, raiseBoth_discarded,
      withdraw_accepted, withdraw_fired, withdraw_merged, withdraw_dropped, withdraw_discarded, armed, pending,
      Option.isSome_some, Option.isSome_none, countIf_true, countIf_false]
    ring

theorem withoutRoll_isSome {st : Option Strike} (left : (withoutRoll st).isSome = true) : st.isSome = true := by
  cases st with
  | none => simp [withoutRoll] at left
  | some x => rfl

/-- What the roll leaves of the strikes of a key, and what is discarded of them. -/
theorem strikes_leftByRoll (r : KeyRecord) :
    BitVec.ofNat 32 r.strikes = r.lostToPause + BitVec.ofNat 32 r.leftByRoll.strikes := by
  have each : ∀ st : Option Strike, countIf st.isSome
      = countIf (st.isSome && (withoutRoll st).isNone) + countIf (withoutRoll st).isSome := by
    intro st
    cases left : withoutRoll st with
    | none => simp
    | some x => simp [withoutRoll_isSome (st := st) (by simp [left])]
  rw [strikes_eq, strikes_eq, each r.armed, each r.pending, KeyRecord.lostToPause, KeyRecord.leftByRoll]
  ring

theorem pauseKeyOnly_sound (sound : Sound b i) (k : Key) : Sound b (pauseKeyOnly m k i) := by
  obtain ⟨r, was⟩ : ∃ r, i.keys[k] = r := ⟨_, rfl⟩
  have stands := sound.keyAgrees was
  rw [pauseKeyOnly_eq, was]
  have counted : (i.accepted + i.closed + BitVec.ofNat 32 r.strikes + b)
      = i.accepted + (i.fired + i.merged + i.dropped + (i.discarded + r.lostToPause))
        + BitVec.ofNat 32 r.leftByRoll.strikes + b := by
    rw [strikes_leftByRoll r, Instrument.closed]
    ring
  by_cases lost : r.armed.isSome = true ∧ withoutRoll r.armed = none
  · have state := stands.armed_iff.1 lost.1
    rw [if_pos (by rcases state with state | state <;> simp [lost.1, lost.2, state])]
    unfold loseArmedOnly
    dsimp only
    simp only [withdraw_keys, getElem_set_key]
    split
    · next st pending =>
      refine askIfDueOnly_sound ?_
      refine sound.loseKey was state
        (KeyRecord.promote { r.leftByRoll with armed := none, requestMoment := none } m.pt st) (by simp) rfl rfl rfl rfl
        ⟨.inr ⟨rfl, rfl⟩, rfl⟩ ?_
      have left : withoutRoll r.pending = some st := pending
      have same : (KeyRecord.promote { r.leftByRoll with armed := none, requestMoment := none } m.pt st).strikes
          = r.leftByRoll.strikes := by
        simp [KeyRecord.strikes, KeyRecord.promote, KeyRecord.leftByRoll, lost.2, left]
      refine counted.trans ?_
      rw [← same]
      rfl
    · next pending =>
      refine sound.loseKey was state
        { r.leftByRoll with state := .rest, holders := .empty, armed := none, requestMoment := none } (by simp) rfl rfl rfl rfl
        ⟨.inl ⟨rfl, rfl⟩, pending⟩ ?_
      have same : ({ r.leftByRoll with
          state := .rest, holders := .empty, armed := none, requestMoment := none } : KeyRecord).strikes
            = r.leftByRoll.strikes := by
        simp [KeyRecord.strikes, KeyRecord.leftByRoll, lost.2]
      refine counted.trans ?_
      rw [← same]
      rfl
  · rw [if_neg (by
      intro gone
      simp only [Bool.and_eq_true, Option.isNone_iff_eq_none] at gone
      exact lost gone.1)]
    have kept : (withoutRoll r.armed).isSome = r.armed.isSome := by
      cases armed : r.armed with
      | none => simp [withoutRoll]
      | some st =>
        rw [Option.isSome_some, Option.isSome_iff_ne_none]
        exact fun gone => lost ⟨by simp [armed], by rwa [armed]⟩
    have left : Sound b { i with
        discarded := i.discarded + r.lostToPause
        keys := i.keys.set k r.leftByRoll } := by
      refine sound.setKey was r.leftByRoll rfl rfl rfl rfl ⟨Iff.rfl, ?_, ?_⟩ rfl counted
      · exact (by rw [KeyRecord.leftByRoll, kept] : r.leftByRoll.armed.isSome = true ↔ r.armed.isSome = true).trans
          stands.armed_iff
      · exact fun pends => stands.pending (withoutRoll_isSome pends)
    split
    · exact emptiedOnly_sound left
    · exact left

theorem pauseKeysOnly_sound (sound : Sound b i) : Sound b (pauseKeysOnly m i) :=
  forKeys_induct (P := Sound b) (fun k _ sound => pauseKeyOnly_sound sound k) sound

/-- A key in SHED that the damper's departure cuts (R108). -/
theorem cutShed_sound (sound : Sound b i) : Sound b (cutShed i) := by
  refine forKeys_induct (P := Sound b) (fun k i sound => ?_) sound
  obtain ⟨r, was⟩ : ∃ r, i.keys[k] = r := ⟨_, rfl⟩
  have stands := sound.keyAgrees was
  rw [was]
  by_cases shed : r.state = .shed
  · rw [if_pos shed]
    have armed := stands.armed_none (by simp [shed])
    refine sound.setKey was { r with
      state := if r.returnEnd.isSome then .returning else .rest
      holders := .empty
      holdStart := none } rfl rfl rfl rfl ⟨?_, ?_, ?_⟩ ?_ rfl
    · cases r.returnEnd <;> simp [shed]
    · cases r.returnEnd <;> simp [armed]
    · intro pends
      have returns := (stands.pending pends).2.2 shed
      simp [returns]
    · cases r.returnEnd <;> simp [KeyRecord.charge, shed]
  · rw [if_neg shed]
    exact sound

theorem countRollCuts_sound (sound : Sound b i) : Sound b (countRollCuts i) := by
  refine forKeys_induct (P := Sound b) (fun k i sound => ?_) sound
  split
  · exact sound.same ⟨rfl, rfl, rfl, rfl, rfl, rfl, rfl⟩
  · exact sound

/-! ### Pedals (R121 to R130) -/

/-- A change of one pedal with the wait list as it was. -/
theorem Sound.setPedal (sound : Sound b i) {d : PedalName} {old : PedalRecord} (was : i.pedal d = old) (r : PedalRecord)
    (n : Nat) (agrees : PedalAgrees (old.requestMoment.isSome = true) r)
    (units : i.unitsInUse - n + old.charge = i.unitsInUse + r.charge) :
    Sound b (Sys2Proof.Machine.setPedal d r (returnUnits n i)) := by
  refine sound.changePedal d r (by simp) (setPedal_pedal d _ _) (fun x ne => setPedal_pedal_ne ne _ _)
    (by simpa [Instrument.waiting] using sound.once) (by simp [Instrument.waiting])
    ⟨?_, agrees.held, agrees.assist⟩ (by rw [was, setPedal_unitsInUse, returnUnits_unitsInUse]; exact units) (by simp)
    (by simp [Instrument.closed])
  have stands := sound.pedal d
  rw [was] at stands
  rw [← agrees.waits_iff]
  simpa [Instrument.waiting] using stands.waits_iff

theorem pedalDown_sound (sound : Sound b i) (d : PedalName) (o : Origin) : Sound b (pedalDown d o m i) := by
  obtain ⟨r, was⟩ : ∃ r, i.pedal d = r := ⟨_, rfl⟩
  have stands := sound.pedal d
  unfold pedalDown
  dsimp only
  rw [was] at stands ⊢
  have occupied : (r.holders.insert o).isEmpty = false := by cases o <;> simp [Origins.insert, Origins.isEmpty]
  split
  · exact sound
  · split
    · next empty =>
      have absent : .pedal d ∉ i.waiting := by
        intro waits
        exact absurd (stands.held (stands.waits_iff.1 waits)) (by simp [empty])
      have placed := waiting_placeRequest m (.pedal d)
        (Sys2Proof.Machine.setPedal d { r with holders := r.holders.insert o, requestMoment := some m.now } i)
      have same : (Sys2Proof.Machine.setPedal d { r with holders := r.holders.insert o, requestMoment := some m.now } i).waiting
          = i.waiting := by simp [Instrument.waiting]
      rw [same] at placed
      refine pass_sound (sound.changePedal d { r with holders := r.holders.insert o, requestMoment := some m.now } (by simp) (by cases d <;> rfl)
        (fun x ne => (show (placeRequest _ _ _).pedal x = _ by cases x <;> rfl).trans (setPedal_pedal_ne ne _ _)) ?_ ?_
        ⟨?_, fun _ => occupied, stands.assist⟩ ?_ (by simp) (by simp [Instrument.closed]))
      · exact placed.nodup_iff.2 (List.nodup_cons.2 ⟨absent, sound.once⟩)
      · intro q other
        rw [placed.mem_iff, List.mem_cons]
        simp [other]
      · simp [placed.mem_iff]
      · rw [was, placeRequest_unitsInUse, setPedal_unitsInUse]
        rfl
    · have joins := sound.setPedal was { r with holders := r.holders.insert o } 0
        ⟨Iff.rfl, fun _ => occupied, stands.assist⟩ rfl
      exact joins

end

end Sys2Proof.Machine
end

section
/-! PROOFS. The pedals that go up, the drops and the supply monitor keep the books of the instrument (R126 to R128, R144 to R148). -/

namespace Sys2Proof.Machine

section
variable {b : Counter} {i : Instrument} {m : Moment}

/-! ### A pedal goes up (R127 to R129, R134) -/

/-- The record of a pedal as it enters GOING-UP, or UP at once where there is no travel (R127, R134). -/
def goneUp (m : Moment) (d : PedalName) (withAssist : Bool) (r : PedalRecord) : PedalRecord :=
  let g := m.map.pedal d
  let p0 := r.position m.now
  let travel := p0 * g.upTravel / 1000
  let assist := withAssist && decide (0 < g.assistLength) && decide (0 < travel)
  { r with
    state := if travel = 0 then .up else .goingUp
    travel := if travel = 0 then none else some ⟨m.now, p0, m.now + travel * 100⟩
    assistEnd := if assist then some (m.now + g.assistLength * 100) else none
    bridge :=
      if assist then r.bridge.switch m.now (.reverse g.assistDuty)
      else if withAssist then r.bridge.switch m.now .off
      else r.bridge.stopAtOnce m.now }

/-- The pedal's record and units, before a damper that goes up cuts the keys in SHED. -/
def pedalGoneUp (m : Moment) (d : PedalName) (withAssist : Bool) (i : Instrument) : Instrument :=
  setPedal d (goneUp m d withAssist (i.pedal d))
    (returnUnits ((i.pedal d).charge - (goneUp m d withAssist (i.pedal d)).charge) i)

theorem goUpOnly_eq (m : Moment) (d : PedalName) (withAssist : Bool) (i : Instrument) :
    goUpOnly m d withAssist i = match d with
      | .damper => cutShed { pedalGoneUp m d withAssist i with damperDown := false }
      | .shift => pedalGoneUp m d withAssist i := by
  cases d <;> rfl

theorem goneUp_assist {d : PedalName} {withAssist : Bool} {r : PedalRecord}
    (runs : (goneUp m d withAssist r).assistEnd.isSome = true) : (goneUp m d withAssist r).state = .goingUp := by
  unfold goneUp at runs ⊢
  dsimp only at runs ⊢
  split at runs
  · next assist =>
    rw [if_neg]
    simp only [Bool.and_eq_true, decide_eq_true_eq] at assist
    omega
  · simp at runs

theorem goneUp_charge_le (m : Moment) (d : PedalName) (withAssist : Bool) (r : PedalRecord) :
    (goneUp m d withAssist r).charge ≤ 1 := by
  unfold PedalRecord.charge
  split
  case h_3 => split <;> omega
  case h_4 => omega
  all_goals
    next state =>
      unfold goneUp at state
      dsimp only at state
      split at state <;> simp at state

theorem pedalGoneUp_sound (sound : Sound b i) {d : PedalName} (withAssist : Bool)
    (isDown : (i.pedal d).state = .down ∨ (i.pedal d).state = .goingDown) : Sound b (pedalGoneUp m d withAssist i) := by
  obtain ⟨r, was⟩ : ∃ r, i.pedal d = r := ⟨_, rfl⟩
  have stands := sound.pedal d
  have charged := sound.pedalCharge_le d
  have left := goneUp_charge_le m d withAssist r
  unfold pedalGoneUp
  rw [was] at stands charged isDown ⊢
  refine sound.setPedal was _ _ ⟨Iff.rfl, stands.held, goneUp_assist⟩ ?_
  have more : 1 ≤ r.charge := by rcases isDown with state | state <;> simp [PedalRecord.charge, state]
  omega

theorem goUpOnly_sound (sound : Sound b i) {d : PedalName} (withAssist : Bool)
    (isDown : (i.pedal d).state = .down ∨ (i.pedal d).state = .goingDown) : Sound b (goUpOnly m d withAssist i) := by
  have gone := pedalGoneUp_sound (m := m) sound withAssist isDown
  rw [goUpOnly_eq]
  cases d with
  | damper => exact cutShed_sound (gone.same ⟨rfl, rfl, rfl, rfl, rfl, rfl, rfl⟩)
  | shift => exact gone

/-- A waiting pedal that its last holder has left withdraws its request. -/
theorem withdrawPedal_sound (sound : Sound b i) {d : PedalName} {r : PedalRecord} (was : i.pedal d = r) (holders : Origins) :
    Sound b (withdraw (.pedal d) (setPedal d { r with holders := holders, requestMoment := none } i)) := by
  have stands := sound.pedal d
  rw [was] at stands
  have waiting : (withdraw (.pedal d) (setPedal d { r with holders := holders, requestMoment := none } i)).waiting
      = i.waiting.filter fun x => decide (x ≠ .pedal d) := by
    rw [waiting_withdraw]
    simp [Instrument.waiting]
  refine sound.changePedal d { r with holders := holders, requestMoment := none } (by simp) ?_ ?_
    (waiting ▸ sound.once.filter _) ?_ ⟨?_, by simp, stands.assist⟩ ?_ (by simp) (by simp [Instrument.closed])
  · cases d <;> rfl
  · intro x ne
    exact (show (withdraw _ _).pedal x = _ by cases x <;> rfl).trans (setPedal_pedal_ne ne _ _)
  · intro q other
    simp [waiting, other]
  · simp [waiting]
  · rw [was, withdraw_unitsInUse, setPedal_unitsInUse]
    rfl

theorem setPedal_setPedal (d : PedalName) (r r' : PedalRecord) (i : Instrument) :
    setPedal d r' (setPedal d r i) = setPedal d r' i := by
  cases d <;> rfl

theorem leavePedalOnly_sound (sound : Sound b i) (d : PedalName) (o : Origin) : Sound b (leavePedalOnly m d o i) := by
  obtain ⟨r, was⟩ : ∃ r, i.pedal d = r := ⟨_, rfl⟩
  have stands := sound.pedal d
  rw [was] at stands
  unfold leavePedalOnly
  dsimp only
  rw [was]
  have left (kept : r.requestMoment.isSome = true → (r.holders.erase o).isEmpty = false) :
      Sound b (setPedal d { r with holders := r.holders.erase o } i) :=
    sound.setPedal was { r with holders := r.holders.erase o } 0 ⟨Iff.rfl, kept, stands.assist⟩ rfl
  split
  · split
    · unfold upRequestOnly
      dsimp only
      rw [setPedal_pedal, setPedal_setPedal]
      dsimp only
      split
      · exact withdrawPedal_sound sound was _
      · next idle =>
        have left := left (fun asks => absurd asks idle)
        split
        · next state => exact goUpOnly_sound left true (by rw [setPedal_pedal]; exact .inl state)
        · next state => exact goUpOnly_sound left true (by rw [setPedal_pedal]; exact .inr state)
        · exact left
        · exact left
    · next occupied => exact left fun _ => by simpa using occupied
  · exact sound

theorem pedalUp_sound (sound : Sound b i) (d : PedalName) (o : Origin) : Sound b (pedalUp d o m i) := by
  unfold pedalUp
  split
  · split
    · exact pass_sound (leavePedalOnly_sound sound d o)
    · exact leavePedalOnly_sound sound d o
  · exact sound

theorem endAssistOnly_sound (sound : Sound b i) (d : PedalName) : Sound b (endAssistOnly m d i) := by
  obtain ⟨r, was⟩ : ∃ r, i.pedal d = r := ⟨_, rfl⟩
  have stands := sound.pedal d
  have charged := sound.pedalCharge_le d
  unfold endAssistOnly
  dsimp only
  rw [was] at stands charged ⊢
  split
  · next runs =>
    have state := stands.assist runs
    refine sound.setPedal was _ 1 ⟨Iff.rfl, stands.held, by simp⟩ ?_
    simp only [PedalRecord.charge, state, runs, if_true] at charged ⊢
    simp only [Option.isSome_none, Bool.false_eq_true, if_false]
    omega
  · exact sound

theorem endAssistOnly_pedal (m : Moment) (d : PedalName) (i : Instrument) :
    ((endAssistOnly m d i).pedal d).state = (i.pedal d).state ∧ ((endAssistOnly m d i).pedal d).assistEnd = none := by
  unfold endAssistOnly
  dsimp only
  split
  · rw [setPedal_pedal]
    exact ⟨rfl, rfl⟩
  · next stopped => exact ⟨rfl, by simpa using stopped⟩

theorem enterUpOnly_sound (sound : Sound b i) {d : PedalName} (goesUp : (i.pedal d).state = .goingUp) :
    Sound b (enterUpOnly m d i) := by
  obtain ⟨state, assist⟩ := endAssistOnly_pedal m d i
  have ended := endAssistOnly_sound (m := m) sound d
  have stands := ended.pedal d
  refine ended.setPedal rfl { (endAssistOnly m d i).pedal d with state := .up, travel := none } 0
    ⟨Iff.rfl, stands.held, by simp [assist]⟩ ?_
  simp [PedalRecord.charge, state, assist, goesUp]

theorem pauseInstrument_sound (sound : Sound b i) : Sound b (pauseInstrument m i) :=
  pass_sound (leavePedalOnly_sound (leavePedalOnly_sound (pauseKeysOnly_sound sound) _ _) _ _)

/-! ### Drops (R97, R130, R144, R150) -/

theorem dropOnly_sound (sound : Sound b i) {e : WaitEntry} (waits : e.requester ∈ i.waiting) : Sound b (dropOnly m e i) := by
  unfold dropOnly
  dsimp only
  split
  · next k asks =>
    rw [asks] at waits ⊢
    exact dropKey_sound sound waits
  · next d asks =>
    rw [asks]
    have gone := withdrawPedal_sound sound (d := d) rfl .empty
    refine gone.same ⟨?_, ?_, ?_, ?_, ?_, ?_, ?_⟩ <;> cases d <;> rfl

/-- The drop of an entry leaves every other requester waiting. -/
theorem dropOnly_waiting {e : WaitEntry} {q : Requester} (other : q ≠ e.requester) (waits : q ∈ i.waiting) :
    q ∈ (dropOnly m e i).waiting := by
  have left : q ∈ (withdraw e.requester i).waiting := by simp [waiting_withdraw, waits, other]
  have asks : ∀ (k : Key) (j : Instrument), q ∈ j.waiting → q ∈ (askIfDueOnly m k j).waiting := by
    intro k j waits
    unfold askIfDueOnly
    split
    · split
      · exact (waiting_placeRequest _ _ _).mem_iff.2 (List.mem_cons_of_mem _ waits)
      · exact waits
    · exact waits
  unfold dropOnly
  dsimp only
  split
  · unfold dropKeyOnly
    dsimp only
    split
    · exact asks _ _ left
    · exact left
  · next d asks =>
    unfold dropPedalOnly
    simpa [Instrument.waiting] using left

theorem dropAll_sound (l : List WaitEntry) (once : (l.map WaitEntry.requester).Nodup) (sound : Sound b i)
    (waits : ∀ e ∈ l, e.requester ∈ i.waiting) : Sound b (l.foldl (fun acc e => dropOnly m e acc) i) := by
  induction l generalizing i with
  | nil => exact sound
  | cons e l ih =>
    rw [List.map_cons, List.nodup_cons] at once
    refine ih once.2 (dropOnly_sound sound (waits e (by simp))) fun x mem => ?_
    exact dropOnly_waiting (fun same => once.1 (same ▸ List.mem_map_of_mem mem)) (waits x (by simp [mem]))

theorem newSupplyRecord_sound (sound : Sound b i) : Sound b (newSupplyRecord m i) := by
  rw [newSupplyRecord_eq]
  have waiting : ({ i with waitList := againLimited m.map.supply.lateLimit i.waitList } : Instrument).waiting = i.waiting := by
    simp [Instrument.waiting, againLimited, Function.comp_def]
  have again : Sound b { i with waitList := againLimited m.map.supply.lateLimit i.waitList } := by
    refine ⟨waiting ▸ sound.once, fun k => ?_, fun d => ?_, sound.units, sound.strikes⟩
    · rw [waiting]
      exact sound.key k
    · rw [waiting]
      have stands := sound.pedal d
      cases d <;> exact stands
  refine pass_sound (dropAll_sound _ ?_ again ?_)
  · exact again.once.sublist (List.filter_sublist.map _)
  · intro e mem
    exact List.mem_map_of_mem (List.mem_of_mem_filter mem)

theorem firstDrop_mem {e : WaitEntry} (first : firstDrop i = some e) : e ∈ i.waitList := by
  have from_best : ∀ (l : List WaitEntry) (best : Option WaitEntry),
      l.foldl (fun best e => match best with
        | none => some e
        | some b => if e.dropMoment < b.dropMoment then some e else best) best = some e → e ∈ l ∨ best = some e := by
    intro l
    induction l with
    | nil => exact fun best found => .inr found
    | cons x l ih =>
      intro best found
      rcases ih _ found with later | here
      · exact .inl (List.mem_cons_of_mem _ later)
      · cases best with
        | none => exact .inl (by simpa using .inl (Option.some.inj here).symm)
        | some y =>
          dsimp only at here
          split at here
          · exact .inl (by simpa using .inl (Option.some.inj here).symm)
          · exact .inr here
  exact (from_best _ none first).resolve_right (by simp)

theorem dropFirst_sound (sound : Sound b i) : Sound b (dropFirst m i) := by
  unfold dropFirst
  split
  · next e first => exact pass_sound (dropOnly_sound sound (List.mem_map_of_mem (firstDrop_mem first)))
  · exact sound

/-! ### Supply CRITICAL (R112, R134, R148) -/

/-- The strikes of all keys, with every strike lost at CRITICAL closed. -/
theorem criticalKeyOnly_strikes (k : Key) (strikes : i.accepted = i.closed + BitVec.ofNat 32 (keyStrikes i) + b) :
    (criticalKeyOnly m k i).accepted
      = (criticalKeyOnly m k i).closed + BitVec.ofNat 32 (keyStrikes (criticalKeyOnly m k i)) + b := by
  rw [criticalKeyOnly_eq]
  obtain ⟨r, was⟩ : ∃ r, i.keys[k] = r := ⟨_, rfl⟩
  have replaced : BitVec.ofNat 32 ((i.keys.set k (r.afterCritical m k)).toList.map KeyRecord.strikes).sum
      + BitVec.ofNat 32 r.strikes = BitVec.ofNat 32 (keyStrikes i) := by
    rw [← BitVec.ofNat_add, ← was, sum_set KeyRecord.strikes i.keys k]
    rfl
  have lost : countIf (r.armed.isSome && decide (r.state = .wait)) + countIf (r.armed.isSome && decide (r.state ≠ .wait))
      = countIf r.armed.isSome := by
    by_cases state : r.state = .wait <;> simp [state]
  rw [strikes_eq, ← lost] at replaced
  rw [was]
  simp only [Instrument.closed, keyStrikes] at strikes replaced ⊢
  linear_combination strikes - replaced

theorem afterCritical_state (m : Moment) (k : Key) (r : KeyRecord) :
    (r.afterCritical m k).state = .returning ∨ (r.afterCritical m k).state = .rest := by
  unfold KeyRecord.afterCritical
  dsimp only
  split
  · exact .inl rfl
  · exact .inr rfl

/-- A pedal that CRITICAL has turned off: it does not wait, has no assist, and holds no unit (R134). -/
structure PedalOff (r : PedalRecord) : Prop where
  idle : r.requestMoment = none
  stopped : r.assistEnd = none
  up : r.state = .up ∨ r.state = .goingUp

theorem PedalOff.charge {r : PedalRecord} (off : PedalOff r) : r.charge = 0 := by
  rcases off.up with state | state <;> simp [PedalRecord.charge, state, off.stopped]

theorem goneUp_off (d : PedalName) {r : PedalRecord} (idle : r.requestMoment = none) : PedalOff (goneUp m d false r) := by
  refine ⟨idle, rfl, ?_⟩
  unfold goneUp
  dsimp only
  split
  · exact .inl rfl
  · exact .inr rfl

/-- CRITICAL turns a pedal off, and where no key is in SHED it touches neither a key, nor the other pedal, nor a count of strikes. -/
theorem criticalPedalOnly_off (d : PedalName) (assist : (i.pedal d).assistEnd.isSome = true → (i.pedal d).state = .goingUp)
    (noShed : ∀ k : Key, i.keys[k].state ≠ .shed) :
    let j := criticalPedalOnly m d i
    PedalOff (j.pedal d) ∧ (∀ x, x ≠ d → j.pedal x = i.pedal x) ∧ j.keys = i.keys ∧ j.accepted = i.accepted
      ∧ j.closed = i.closed := by
  have goes : ∀ j : Instrument, j.keys = i.keys → j.accepted = i.accepted → j.closed = i.closed →
      (j.pedal d).requestMoment = none → (∀ x, x ≠ d → j.pedal x = i.pedal x) →
      PedalOff ((goUpOnly m d false j).pedal d) ∧ (∀ x, x ≠ d → (goUpOnly m d false j).pedal x = i.pedal x)
        ∧ (goUpOnly m d false j).keys = i.keys ∧ (goUpOnly m d false j).accepted = i.accepted
        ∧ (goUpOnly m d false j).closed = i.closed := by
    intro j keys accepted closed idle others
    have gone : PedalOff ((pedalGoneUp m d false j).pedal d) ∧ (∀ x, x ≠ d → (pedalGoneUp m d false j).pedal x = i.pedal x)
        ∧ (pedalGoneUp m d false j).keys = i.keys ∧ (pedalGoneUp m d false j).accepted = i.accepted
        ∧ (pedalGoneUp m d false j).closed = i.closed := by
      unfold pedalGoneUp
      refine ⟨?_, fun x ne => (setPedal_pedal_ne ne _ _).trans (others x ne), by simpa using keys, by simpa using accepted,
        by simpa [Instrument.closed] using closed⟩
      rw [setPedal_pedal]
      exact goneUp_off d idle
    rw [goUpOnly_eq]
    cases d with
    | shift => exact gone
    | damper =>
      dsimp only
      rw [cutShed_none (by simpa [gone.2.2.1] using noShed)]
      refine ⟨gone.1, fun x ne => ?_, gone.2.2⟩
      exact (show _ = (pedalGoneUp m .damper false j).pedal x by cases x <;> rfl).trans (gone.2.1 x ne)
  unfold criticalPedalOnly
  dsimp only
  have others : ∀ r n x, x ≠ d → (setPedal d r { i with pedalDropped := n }).pedal x = i.pedal x := by
    intro r n x ne
    exact (setPedal_pedal_ne ne _ _).trans (by cases x <;> rfl)
  split
  case h_3 state =>
    refine ⟨?_, fun x ne => ?_, by simp, by simp, by simp [Instrument.closed]⟩
    · rw [setPedal_pedal]
      exact ⟨by rw [setPedal_pedal], rfl, .inr (by rw [setPedal_pedal]; exact state)⟩
    · rw [setPedal_pedal_ne ne]
      exact others _ _ x ne
  case h_4 state =>
    refine ⟨?_, fun x ne => ?_, by simp, by simp, by simp [Instrument.closed]⟩
    · rw [setPedal_pedal, setPedal_pedal]
      refine ⟨rfl, ?_, .inl state⟩
      by_contra runs
      have := assist (Option.isSome_iff_ne_none.2 runs)
      rw [state] at this
      exact absurd this (by decide)
    · rw [setPedal_pedal_ne ne]
      exact others _ _ x ne
  all_goals
    refine goes _ (by simp) (by simp) (by simp [Instrument.closed]) (by rw [setPedal_pedal]) (others _ _)

/-- CRITICAL turns both pedals off. -/
theorem criticalPedals_off (assist : ∀ d, (i.pedal d).assistEnd.isSome = true → (i.pedal d).state = .goingUp)
    (noShed : ∀ k : Key, i.keys[k].state ≠ .shed) :
    let j := criticalPedalOnly m .shift (criticalPedalOnly m .damper i)
    (∀ d, PedalOff (j.pedal d)) ∧ j.keys = i.keys ∧ j.accepted = i.accepted ∧ j.closed = i.closed := by
  obtain ⟨damper, shiftKept, keys, accepted, closed⟩ := criticalPedalOnly_off (m := m) .damper (assist .damper) noShed
  obtain ⟨shift, damperKept, keys', accepted', closed'⟩ :=
    criticalPedalOnly_off (m := m) (i := criticalPedalOnly m .damper i) .shift
      (by rw [shiftKept .shift (by decide)]; exact assist .shift) (by rwa [keys])
  refine ⟨fun d => ?_, keys'.trans keys, accepted'.trans accepted, closed'.trans closed⟩
  cases d with
  | damper => rw [damperKept .damper (by decide)]; exact damper
  | shift => exact shift

/-- An instrument that CRITICAL has turned off is sound: nothing waits, nothing holds a unit, and no strike is at a key. -/
theorem Sound.off (strikes : i.accepted = i.closed + BitVec.ofNat 32 (keyStrikes i) + b)
    (keys : ∀ k : Key, ∃ r : KeyRecord, i.keys[k] = r.afterCritical m k) (pedals : ∀ d, PedalOff (i.pedal d)) :
    Sound b { i with unitsInUse := 0, damperDown := false, waitList := [] } := by
  refine ⟨List.nodup_nil, fun k => ?_, fun d => ?_, ?_, strikes⟩
  · obtain ⟨r, was⟩ := keys k
    show KeyAgrees _ i.keys[k]
    rw [was]
    rcases afterCritical_state m k r with state | state <;>
      exact ⟨by simp [Instrument.waiting, state], by rw [state]; simp [KeyRecord.afterCritical],
        by simp [KeyRecord.afterCritical]⟩
  · have stands : PedalAgrees (.pedal d ∈ ([] : List Requester)) (i.pedal d) :=
      ⟨by simp [(pedals d).idle], by simp [(pedals d).idle], by simp [(pedals d).stopped]⟩
    cases d <;> exact stands
  · have uncharged : (i.keys.toList.map KeyRecord.charge).sum = 0 := by
      refine List.sum_eq_zero fun n mem => ?_
      obtain ⟨r, inKeys, rfl⟩ := List.mem_map.1 mem
      obtain ⟨k, inside, rfl⟩ := List.getElem_of_mem inKeys
      obtain ⟨r, was⟩ := keys ⟨k, by simpa using inside⟩
      have record : i.keys.toList[k] = r.afterCritical m ⟨k, by simpa using inside⟩ := by simpa using was
      rw [record]
      rcases afterCritical_state m ⟨k, by simpa using inside⟩ r with state | state <;> simp [KeyRecord.charge, state]
    have damper := (pedals .damper).charge
    have shift := (pedals .shift).charge
    simp only [Instrument.pedal] at damper shift
    simp only [chargesOf, uncharged, damper, shift]

theorem enterCritical_sound (sound : Sound b i) : Sound b (enterCritical m i) := by
  obtain ⟨keys, others⟩ := criticalKeysOnly_eq m { i with monitor := .critical }
  have strikes : (criticalKeysOnly m { i with monitor := .critical }).accepted
      = (criticalKeysOnly m { i with monitor := .critical }).closed
        + BitVec.ofNat 32 (keyStrikes (criticalKeysOnly m { i with monitor := .critical })) + b :=
    forKeys_induct (P := fun i => i.accepted = i.closed + BitVec.ofNat 32 (keyStrikes i) + b)
      (fun k _ strikes => criticalKeyOnly_strikes k strikes) sound.strikes
  have damper : (criticalKeysOnly m { i with monitor := .critical }).damper = i.damper := by rw [others]
  have shift : (criticalKeysOnly m { i with monitor := .critical }).shift = i.shift := by rw [others]
  unfold enterCritical
  generalize criticalKeysOnly m { i with monitor := .critical } = j at keys strikes damper shift ⊢
  have noShed : ∀ k : Key, j.keys[k].state ≠ .shed := by
    intro k
    rw [keys k]
    rcases afterCritical_state m k i.keys[k] with state | state <;> rw [state] <;> decide
  have assist : ∀ d, (j.pedal d).assistEnd.isSome = true → (j.pedal d).state = .goingUp := by
    intro d
    have stands := (sound.pedal d).assist
    cases d with
    | damper => rw [Instrument.pedal, damper]; exact stands
    | shift => rw [Instrument.pedal, shift]; exact stands
  obtain ⟨pedals, keysKept, accepted, closed⟩ := criticalPedals_off (m := m) assist noShed
  generalize criticalPedalOnly m .shift (criticalPedalOnly m .damper j) = z at pedals keysKept accepted closed ⊢
  have off : Sound b { z with unitsInUse := 0, damperDown := false, waitList := [] } := by
    refine Sound.off (m := m) ?_ (fun k => ⟨i.keys[k], by rw [keysKept]; exact keys k⟩) pedals
    rw [accepted, closed, keyStrikes, keysKept]
    exact strikes
  exact off.same ⟨rfl, rfl, rfl, rfl, rfl, rfl, rfl⟩

theorem monitorChange_sound (sound : Sound b i) (level : MonitorLevel) : Sound b (monitorChange level m i) := by
  unfold monitorChange
  split
  · exact pass_sound (sound.same ⟨rfl, rfl, rfl, rfl, rfl, rfl, rfl⟩)
  · exact pass_sound (sound.same ⟨rfl, rfl, rfl, rfl, rfl, rfl, rfl⟩)
  · exact enterCritical_sound sound

end

end Sys2Proof.Machine
end

section
/-! PROOFS. What every change of the performance keeps: the queue in order and within its room, the buffers within their room, a session
that is over clear, and the books (O55, O57, O58, O59). -/

namespace Sys2Proof.Machine

/-! ### What is kept -/

/-- The queue is in order, and every entry was inserted before the next will be (R49, R51). -/
def Queue.ordered (q : Queue) : Prop := inOrder q.entries ∧ ∀ x ∈ q.entries, x.order < q.insertions

/-- The buffers of the session keep within their room (R13, R14). -/
def Session.fits (x : Session) : Prop :=
  x.sensorBuffer.length ≤ 2 ∧ (x.stepTimer.isSome = true → x.sensorBuffer.length < 2)
    ∧ x.streamBuffer.length ≤ streamCapacity

/-- The session is over: IDLE, or REWINDING after its stop. -/
def Session.ended (x : Session) : Prop := x.state = .idle ∨ x.state = .rewinding

/-- The session has no line, no step, and no open stream. -/
def Session.clear (x : Session) : Prop :=
  x.sensorBuffer = [] ∧ x.streamBuffer = [] ∧ x.stepTimer = none ∧ x.streamOpen = false

/-- A session that is over has left nothing behind (R13, R20, R58). -/
def Performance.cleared (p : Performance) : Prop := p.session.ended → p.queue.entries = [] ∧ p.session.clear

/-- The books of the performance with a surplus of `b`: the strikes that stand at no key are those queued and `b` more (R118). -/
def Booked (b : Counter) (p : Performance) : Prop := Sound (BitVec.ofNat 32 p.queue.strikes + b) p.instrument

/-- A change that keeps the books, and leaves no surplus where there was none. -/
def BooksKept (p p' : Performance) : Prop := ∀ b, Booked b p → ∃ b', Booked b' p' ∧ (b = 0 → b' = 0)

/-- What the performance keeps through a change. -/
structure Keeps (p p' : Performance) : Prop where
  ordered : p.queue.ordered → p'.queue.ordered
  room : p.queue.entries.length ≤ queueCapacity → p'.queue.entries.length ≤ queueCapacity
  fits : p.session.fits → p'.session.fits
  cleared : p.cleared → p'.cleared
  books : BooksKept p p'

theorem booksKept_of {p p' : Performance} (books : ∀ b, Booked b p → Booked b p') : BooksKept p p' :=
  fun b booked => ⟨b, books b booked, id⟩

theorem Keeps.refl (p : Performance) : Keeps p p := ⟨id, id, id, id, booksKept_of fun _ => id⟩

theorem Keeps.trans {p q r : Performance} (first : Keeps p q) (second : Keeps q r) : Keeps p r := by
  refine ⟨second.ordered ∘ first.ordered, second.room ∘ first.room, second.fits ∘ first.fits,
    second.cleared ∘ first.cleared, fun b booked => ?_⟩
  obtain ⟨c, booked', zero⟩ := first.books b booked
  obtain ⟨d, booked'', zero'⟩ := second.books c booked'
  exact ⟨d, booked'', zero' ∘ zero⟩

theorem Keeps.ite {c : Prop} [Decidable c] {p q r : Performance} (holds : c → Keeps p q) (fails : ¬ c → Keeps p r) :
    Keeps p (if c then q else r) := by
  split
  · next h => exact holds h
  · next h => exact fails h

/-! ### The changes of one block -/

section
variable {p : Performance}

theorem Keeps.instrument {i : Instrument} (sound : ∀ b, Sound b p.instrument → Sound b i) :
    Keeps p { p with instrument := i } :=
  ⟨id, id, id, id, booksKept_of fun _ booked => sound _ booked⟩

theorem onInstrument_keeps {f : Moment → Instrument → Instrument} (e : Env)
    (sound : ∀ m b, Sound b p.instrument → Sound b (f m p.instrument)) : Keeps p (onInstrument e f p) :=
  .instrument (sound _)

theorem detector_keeps (d : Detector) : Keeps p { p with detector := d } :=
  ⟨id, id, id, id, booksKept_of fun _ => id⟩

theorem expression_keeps (x : Expression) : Keeps p { p with expression := x } :=
  ⟨id, id, id, id, booksKept_of fun _ => id⟩

/-- A change of the session record that leaves its buffers within their room, into a session that is not over or is clear. -/
theorem Keeps.session {f : Session → Session} (fits : p.session.fits → (f p.session).fits)
    (cleared : (f p.session).ended → p.cleared → p.queue.entries = [] ∧ (f p.session).clear) : Keeps p (onSession f p) :=
  ⟨id, id, fits, fun before ended => cleared ended before, booksKept_of fun _ => id⟩

/-- A change of the session record that touches neither its state, nor its lines, nor its step. -/
theorem Keeps.sameLines {f : Session → Session} (state : (f p.session).state = p.session.state)
    (sensor : (f p.session).sensorBuffer = p.session.sensorBuffer)
    (stream : (f p.session).streamBuffer = p.session.streamBuffer) (timer : (f p.session).stepTimer = p.session.stepTimer)
    (closed : (f p.session).streamOpen = p.session.streamOpen) : Keeps p (onSession f p) := by
  refine .session (fun fits => ?_) (fun ended before => ?_)
  · rwa [Session.fits, sensor, stream, timer]
  · rw [Session.ended, state] at ended
    rw [Session.clear, sensor, stream, timer, closed]
    exact before ended

/-- A change of the session record into a session that is not over, with its lines as they were or fewer and no further step. -/
theorem Keeps.active {f : Session → Session} (active : ¬ (f p.session).ended)
    (sensor : (f p.session).sensorBuffer.length ≤ p.session.sensorBuffer.length)
    (stream : (f p.session).streamBuffer.length ≤ p.session.streamBuffer.length)
    (timer : (f p.session).stepTimer = p.session.stepTimer ∨ (f p.session).stepTimer = none) : Keeps p (onSession f p) := by
  refine .session (fun ⟨room, step, lines⟩ => ⟨sensor.trans room, fun steps => ?_, stream.trans lines⟩)
    (fun ended => absurd ended active)
  rcases timer with same | none
  · rw [same] at steps
    exact Nat.lt_of_le_of_lt sensor (step steps)
  · simp [none] at steps

theorem advance_keeps (dt : Nat) : Keeps p (advance dt p) := by
  have lines : ∀ x : Session, x.fits ↔ (x.sensorBuffer.length ≤ 2 ∧ (x.stepTimer.isSome = true → x.sensorBuffer.length < 2)
    ∧ x.streamBuffer.length ≤ streamCapacity) := fun _ => Iff.rfl
  refine ⟨?_, ?_, ?_, ?_, booksKept_of fun b booked => ?_⟩
  · rw [advance_queue]; exact id
  · rw [advance_queue]; exact id
  · rw [advance_session]; exact id
  · rw [Performance.cleared, Performance.cleared, advance_queue, advance_session]; exact id
  · rwa [Booked, advance_queue, advance_instrument]

theorem atMoment_keeps {t : Option Nat} {f : Nat → Performance → Performance}
    (acts : ∀ at_, t = some at_ → Keeps (advanceTo at_ p) (f at_ (advanceTo at_ p))) : Keeps p (atMoment t f p) := by
  cases t with
  | none => exact .refl p
  | some at_ => exact (advance_keeps _).trans (acts at_ rfl)

/-! ### The queue (R49, R51, R56, R64 to R67) -/

theorem Queue.ordered_of_sublist {q q' : Queue} (ordered : q.ordered) (sub : q'.entries.Sublist q.entries)
    (insertions : q.insertions ≤ q'.insertions) : q'.ordered :=
  ⟨ordered.1.sublist sub, fun x mem => Nat.lt_of_lt_of_le (ordered.2 x (sub.mem mem)) insertions⟩

/-- A queue that has entries taken from it, with what the instrument does for them. -/
theorem Keeps.shorten {q : Queue} {i : Instrument} (sub : q.entries.Sublist p.queue.entries)
    (insertions : p.queue.insertions ≤ q.insertions)
    (books : ∀ b, Booked b p → Sound (BitVec.ofNat 32 q.strikes + b) i) : Keeps p { p with queue := q, instrument := i } := by
  refine ⟨fun ordered => Queue.ordered_of_sublist ordered sub insertions, fun room => sub.length_le.trans room, id,
    fun before ended => ⟨?_, (before ended).2⟩, booksKept_of books⟩
  have empty := (before ended).1
  rw [empty] at sub
  exact List.sublist_nil.1 sub

/-- The strikes among the entries that a test picks, and the strikes left. -/
theorem strikes_discard (q : Queue) (test : Entry → Bool) : (q.discard test).1 + (q.discard test).2.strikes = q.strikes := by
  unfold Queue.discard Queue.strikes
  dsimp only
  induction q.entries with
  | nil => rfl
  | cons x l ih =>
    cases picked : test x <;> cases strike : x.action.isStrike <;> simp [picked, strike] at ih ⊢ <;> omega

theorem discardEntries_booked {b : Counter} (test : Entry → Bool) (booked : Booked b p) :
    Booked b (discardEntries test p) := by
  refine countDiscarded_sound ?_
  rw [Booked, ← strikes_discard p.queue test, BitVec.ofNat_add] at booked
  convert booked using 1
  rw [discardEntries_queue]
  ring

theorem discardEntries_keeps (test : Entry → Bool) : Keeps p (discardEntries test p) :=
  .shorten List.filter_sublist le_rfl fun _ booked => discardEntries_booked test booked

/-- The strike that an entry is, or none. -/
def Entry.strikes (x : Entry) : Counter := countIf x.action.isStrike

theorem strikes_cons (x : Entry) (l : List Entry) :
    BitVec.ofNat 32 (((x :: l).filter fun y => y.action.isStrike).length)
      = x.strikes + BitVec.ofNat 32 ((l.filter fun y => y.action.isStrike).length) := by
  rw [Entry.strikes, countIf_add, length_filter_cons]

theorem strikes_perm {q : Queue} {l : List Entry} (perm : q.entries.Perm l) :
    q.strikes = (l.filter fun y => y.action.isStrike).length :=
  (perm.filter _).length_eq

end

end Sys2Proof.Machine
end

section
/-! PROOFS. What the ends of a session, the launches and the insertions of entries keep (R19 to R26, R56 to R67). -/

namespace Sys2Proof.Machine

section
variable {p : Performance}

/-! ### The session's changes of state (R14, R19 to R24) -/

theorem pauseEffects_keeps (e : Env) : Keeps p (pauseEffects e p) :=
  onInstrument_keeps e fun _ _ => pauseInstrument_sound

theorem raiseBoth_sound {b : Counter} {i : Instrument} (n : NoticeKind) (sound : Sound b i) : Sound b (raiseBoth n i) :=
  sound.same ⟨rfl, rfl, rfl, rfl, rfl, rfl, rfl⟩

theorem clearSession_clear (x : Session) : (clearSession x).clear := ⟨rfl, rfl, rfl, rfl⟩

theorem afterStop_clear_clear (e : Env) (now : Nat) (x : Session) : (afterStop e now (clearSession x)).clear := by
  unfold afterStop startRewind
  split
  · exact clearSession_clear x
  · split
    · exact clearSession_clear x
    · exact clearSession_clear x

theorem Session.clear.fits {x : Session} (clear : x.clear) : x.fits := by
  obtain ⟨sensor, stream, timer, -⟩ := clear
  simp [Session.fits, sensor, stream, timer]

theorem stopSession_keeps (e : Env) : Keeps p (stopSession e p) := by
  have emptied := (discardEntries_keeps (p := p) fun _ => true).trans (pauseEffects_keeps e)
  refine emptied.trans (.session (fun _ => (afterStop_clear_clear _ _ _).fits) fun _ _ => ⟨?_, afterStop_clear_clear _ _ _⟩)
  simp [Queue.discard]

theorem faultSession_keeps (e : Env) (cause : FaultCause) : Keeps p (faultSession e cause p) := by
  unfold faultSession
  refine .trans (.trans (pauseEffects_keeps e) (.active ?_ le_rfl le_rfl (.inr rfl)))
    (onInstrument_keeps e fun _ _ => raiseBoth_sound _)
  simp [Session.ended]

theorem pauseSession_keeps (e : Env) (cause : PauseCause) : Keeps p (pauseSession e cause p) := by
  unfold pauseSession
  refine (pauseEffects_keeps e).trans (.active ?_ le_rfl le_rfl (.inl rfl))
  simp [Session.ended]

theorem lapseSession_keeps (e : Env) : Keeps p (lapseSession e p) :=
  .ite (fun _ => pauseSession_keeps e _) fun _ => .ite (fun _ => stopSession_keeps e) fun _ => .refl p

theorem criticalSession_keeps (e : Env) : Keeps p (criticalSession e p) :=
  .ite (fun _ => pauseSession_keeps e _) fun _ => .refl p

theorem enterEnding_keeps : Keeps p (onSession enterEnding p) :=
  .active (by simp [Session.ended, enterEnding]) le_rfl le_rfl (.inr rfl)

theorem completeEnding_keeps (e : Env) : Keeps p (completeEnding e p) :=
  (stopSession_keeps e).trans (onInstrument_keeps e fun _ _ => raiseBoth_sound _)

theorem testEnding_keeps (e : Env) : Keeps p (testEnding e p) :=
  .ite (fun _ => completeEnding_keeps e) fun _ => .refl p

theorem forwardStep_keepsPerf (now : Nat) : Keeps p (onSession (forwardStep now) p) := by
  by_cases wants : p.session.wantsStep = true
  · have steps : p.session.steps = true ∧ p.session.sensorBuffer.length < 2 := by
      simp only [Session.wantsStep, Bool.and_eq_true, decide_eq_true_eq] at wants
      exact ⟨wants.1.1.2, wants.1.2⟩
    refine .session (fun fits => ?_) fun ended => ?_
    · rw [forwardStep, if_pos wants]
      exact ⟨fits.1, fun _ => steps.2, fits.2.2⟩
    · rw [Session.ended, (forwardStep_keeps now p.session).1] at ended
      rcases ended with state | state <;> simp [Session.steps, state] at steps
  · rw [show onSession (forwardStep now) p = p by
      rw [onSession, forwardStep_of_none (by simpa using wants)]]
    exact .refl p

theorem settle_keeps (e : Env) : Keeps p (settle e p) :=
  (testEnding_keeps e).trans (forwardStep_keepsPerf _)

/-! ### An entry is handed to its owner (R59, R60, R66) -/

theorem onInstrument_booked {b : Counter} {f : Moment → Instrument → Instrument} {e : Env}
    (sound : ∀ m b, Sound b p.instrument → Sound b (f m p.instrument)) (booked : Booked b p) :
    Booked b (onInstrument e f p) :=
  sound _ _ booked

theorem Entry.strikes_of_other {x : Entry} (other : x.action.isStrike = false) : x.strikes = 0 := by
  rw [Entry.strikes, other, countIf_false]

/-- The owner of an entry takes its strike, or takes none. -/
theorem handOver_booked {b : Counter} (e : Env) (x : Entry) (booked : Booked (b + x.strikes) p) : Booked b (handOver e x p) := by
  unfold handOver
  have other : x.action.isStrike = false → Booked b p := fun other => by
    rwa [Entry.strikes_of_other other, add_zero] at booked
  cases action : x.action with
  | strike k accented mode hold =>
    have one : x.strikes = 1 := by rw [Entry.strikes, action]; rfl
    rw [one, Booked, ← add_assoc] at booked
    exact arrive_sound booked _ k _
  | release k => exact onInstrument_booked (fun _ _ sound => release_sound sound k _) (other (by rw [action]; rfl))
  | pedalDown d => exact onInstrument_booked (fun _ _ sound => pedalDown_sound sound d _) (other (by rw [action]; rfl))
  | pedalUp d => exact onInstrument_booked (fun _ _ sound => pedalUp_sound sound d _) (other (by rw [action]; rfl))
  | expression kind h => exact other (by rw [action]; rfl)
  | sectionMark => exact onInstrument_booked (fun _ _ sound => raiseBoth_sound _ sound) (other (by rw [action]; rfl))
  | endMark => exact discardEntries_booked Entry.discardedByEnd (other (by rw [action]; rfl))

theorem launchEnd_session (p : Performance) :
    (launchEnd p).session = if p.session.state = .playing then enterEnding p.session else p.session := rfl

/-- The owner of an entry leaves the session, or an END takes it from PLAYING to ENDING. -/
theorem handOver_session (e : Env) (x : Entry) (p : Performance) :
    (handOver e x p).session = p.session
      ∨ (p.session.state = .playing ∧ (handOver e x p).session = enterEnding p.session) := by
  unfold handOver
  split
  case h_7 =>
    rw [launchEnd_session]
    split
    · next playing => exact .inr ⟨playing, rfl⟩
    · exact .inl rfl
  all_goals exact .inl rfl

theorem handOver_queue (e : Env) (x : Entry) (p : Performance) :
    (handOver e x p).queue = p.queue ∨ (handOver e x p).queue = (p.queue.discard Entry.discardedByEnd).2 := by
  unfold handOver
  split
  case h_7 => exact .inr rfl
  all_goals exact .inl rfl

theorem handOver_sublist (e : Env) (x : Entry) (p : Performance) :
    (handOver e x p).queue.entries.Sublist p.queue.entries
      ∧ (handOver e x p).queue.insertions = p.queue.insertions := by
  rcases handOver_queue e x p with same | fewer
  · rw [same]
    exact ⟨.refl _, rfl⟩
  · rw [fewer]
    exact ⟨List.filter_sublist, rfl⟩

/-- The owner of an entry leaves a session that is active active. -/
theorem handOver_active {e : Env} {x : Entry} (active : ¬ p.session.ended) : ¬ (handOver e x p).session.ended := by
  rcases handOver_session e x p with same | ⟨-, ends⟩
  · rwa [same]
  · rw [ends]
    simp [Session.ended, enterEnding]

/-- An entry that is handed over, out of a queue that holds `q` after it: the queue loses entries, and the session ends or stays. -/
theorem handOver_keeps (e : Env) (x : Entry) {q : Queue} (sub : q.entries.Sublist p.queue.entries)
    (insertions : p.queue.insertions ≤ q.insertions) {i : Instrument}
    (books : ∀ b, Booked b p → Sound (BitVec.ofNat 32 q.strikes + (b + x.strikes)) i) :
    Keeps p (handOver e x { p with queue := q, instrument := i }) := by
  obtain ⟨fewer, same⟩ := handOver_sublist e x { p with queue := q, instrument := i }
  refine ⟨fun ordered => ?_, fun room => (fewer.trans sub).length_le.trans room, fun fits => ?_, fun before ended => ?_,
    booksKept_of fun b booked => handOver_booked e x (books b booked)⟩
  · exact Queue.ordered_of_sublist ordered (fewer.trans sub) (by rw [same]; exact insertions)
  · rcases handOver_session e x { p with queue := q, instrument := i } with kept | ⟨-, ends⟩
    · rw [kept]
      exact fits
    · rw [ends]
      exact ⟨fits.1, by simp [enterEnding], fits.2.2⟩
  · rcases handOver_session e x { p with queue := q, instrument := i } with kept | ⟨-, ends⟩
    · rw [kept] at ended ⊢
      obtain ⟨empty, clear⟩ := before ended
      have gone := fewer.trans sub
      rw [empty] at gone
      exact ⟨List.sublist_nil.1 gone, clear⟩
    · rw [ends] at ended
      exact absurd ended (by simp [Session.ended, enterEnding])

/-! ### Launching (R59) -/

theorem takeFirst_some {test : Entry → Bool} {l left : List Entry} {x : Entry}
    (found : takeFirst test l = some (x, left)) : ∃ before after, l = before ++ x :: after ∧ left = before ++ after := by
  induction l generalizing left with
  | nil => simp [takeFirst] at found
  | cons y l ih =>
    unfold takeFirst at found
    split at found
    · cases found
      exact ⟨[], l, rfl, rfl⟩
    · obtain ⟨⟨z, rest⟩, taken, same⟩ := Option.map_eq_some_iff.1 found
      cases same
      obtain ⟨before, after, whole, fewer⟩ := ih taken
      exact ⟨y :: before, after, by rw [whole]; rfl, by rw [fewer]; rfl⟩

theorem launchFirst_keeps {e : Env} {bound : Nat} {p' : Performance} (launched : launchFirst e bound p = some p') :
    Keeps p p' := by
  obtain ⟨⟨x, left⟩, taken, rfl⟩ := Option.map_eq_some_iff.1 launched
  obtain ⟨before, after, whole, rest⟩ := takeFirst_some taken
  have perm : p.queue.entries.Perm (x :: left) := by
    rw [whole, rest]
    exact List.perm_middle
  refine .trans (handOver_keeps e x (p := p) (q := { p.queue with entries := left }) (i := p.instrument) ?_ le_rfl ?_)
    (testEnding_keeps e)
  · rw [whole]
    show left.Sublist _
    rw [rest]
    exact (List.sublist_cons_self _ _).append_left _
  · intro b booked
    rw [Booked, strikes_perm perm, strikes_cons] at booked
    convert booked using 1
    rw [Queue.strikes]
    ring

theorem launchUpTo_keeps (e : Env) (fuel : Nat) : Keeps p (launchUpTo e fuel p) := by
  induction fuel generalizing p with
  | zero => exact .refl p
  | succ fuel ih =>
    unfold launchUpTo
    split
    · split
      · exact .refl p
      · next launched => exact (launchFirst_keeps launched).trans ih
    · exact .refl p

theorem launchDue_keeps (e : Env) : Keeps p (launchDue e p) := launchUpTo_keeps e _

/-! ### Inserting (R51, R56, R61 to R63) -/

theorem accepted_sound {b : Counter} {i : Instrument} (c : Counter) (sound : Sound b i) :
    Sound (b + c) { i with accepted := i.accepted + c } :=
  ⟨sound.once, sound.key, sound.pedal, sound.units, by rw [sound.strikes, ← add_assoc]; rfl⟩

/-- A new entry, last in the order of insertion, comes to its place where the queue has room and the session is active. -/
theorem insertEntry_keeps (e : Env) {x : Entry} (fresh : x.order = p.queue.insertions)
    (room : p.queue.entries.length < queueCapacity) (active : ¬ p.session.ended) : Keeps p (insertEntry e x p) := by
  unfold insertEntry
  dsimp only
  refine .ite (fun _ => ?_) fun _ => ?_
  · refine handOver_keeps e x (p := p) (q := p.queue.passThrough)
      (i := { p.instrument with accepted := p.instrument.accepted + countIf x.action.isStrike }) (.refl _) (Nat.le_succ _) ?_
    intro b booked
    rw [← add_assoc]
    exact accepted_sound x.strikes booked
  · have perm := placeEntry_perm x p.queue.entries
    refine ⟨fun ordered => ⟨placeEntry_inOrder ordered.1, fun y mem => ?_⟩, fun _ => ?_, id, fun _ ended => absurd ended active,
      booksKept_of fun b booked => ?_⟩
    · rcases List.mem_cons.1 (perm.mem_iff.1 mem) with rfl | mem
      · exact Nat.lt_succ_of_le (Nat.le_of_eq fresh)
      · exact Nat.lt_succ_of_lt (ordered.2 y mem)
    · exact perm.length_eq.trans_le room
    · have placed : BitVec.ofNat 32 (p.queue.insert x).strikes = x.strikes + BitVec.ofNat 32 p.queue.strikes := by
        rw [strikes_perm (q := p.queue.insert x) perm, strikes_cons, Queue.strikes]
      rw [Booked, placed, add_assoc, add_comm]
      exact accepted_sound x.strikes booked

/-- A roll entry that a full queue refuses. -/
theorem refuseRoll_keeps (e : Env) (a : Action) : Keeps p (refuseRoll e a p) := by
  have refused : Keeps p { p with
      queue := { p.queue with rollOverrun := p.queue.rollOverrun + 1 }
      instrument := raiseBoth .rollOverrun p.instrument } :=
    .shorten (.refl _) le_rfl fun _ booked => raiseBoth_sound _ booked
  refine refused.trans ?_
  unfold refuseRoll refusedEffect
  dsimp only
  split
  · refine .instrument fun b sound => countDiscarded_sound ?_
    exact accepted_sound 1 sound
  · exact (onInstrument_keeps e fun _ _ sound => release_sound sound _ _).trans
      (.instrument fun _ sound => sound.same ⟨rfl, rfl, rfl, rfl, rfl, rfl, rfl⟩)
  · exact (onInstrument_keeps e fun _ _ sound => pedalUp_sound sound _ _).trans
      (.instrument fun _ sound => sound.same ⟨rfl, rfl, rfl, rfl, rfl, rfl, rfl⟩)
  · exact .refl _

theorem refuseRoll_session (e : Env) (a : Action) (p : Performance) : (refuseRoll e a p).session = p.session := by
  unfold refuseRoll refusedEffect
  split <;> rfl

theorem insertEntry_session (e : Env) (x : Entry) (p : Performance) :
    (insertEntry e x p).session = p.session
      ∨ (p.session.state = .playing ∧ (insertEntry e x p).session = enterEnding p.session) := by
  unfold insertEntry
  dsimp only
  split
  · exact handOver_session e x _
  · exact .inl rfl

/-- A hole event leaves the session, or an END takes it from PLAYING to ENDING. -/
theorem queueEvent_session_cases (e : Env) (ref : Reference) (ev : HoleEvent) (p : Performance) :
    (queueEvent e ref ev p).session = p.session
      ∨ (p.session.state = .playing ∧ (queueEvent e ref ev p).session = enterEnding p.session) := by
  unfold queueEvent
  split
  · exact .inl rfl
  · split
    · exact insertEntry_session e _ p
    · exact .inl (refuseRoll_session e _ p)

/-- The events of a line leave the session, or an END takes it from PLAYING to ENDING. -/
theorem queueEvents_session_cases (e : Env) (ref : Reference) (l : List HoleEvent) (p : Performance) :
    (queueEvents e ref l p).session = p.session
      ∨ (p.session.state = .playing ∧ (queueEvents e ref l p).session = enterEnding p.session) := by
  unfold queueEvents
  induction l generalizing p with
  | nil => exact .inl rfl
  | cons ev l ih =>
    rw [List.foldl_cons]
    rcases queueEvent_session_cases e ref ev p with same | ⟨playing, ends⟩
    · rw [← same]
      exact ih _
    · rcases ih (queueEvent e ref ev p) with same | ⟨again, -⟩
      · exact .inr ⟨playing, same.trans ends⟩
      · rw [ends] at again
        exact absurd again (by simp [enterEnding])

theorem queueEvent_keeps (e : Env) (ref : Reference) (ev : HoleEvent) (active : ¬ p.session.ended) :
    Keeps p (queueEvent e ref ev p) := by
  unfold queueEvent
  split
  · exact .refl p
  · split
    · next room =>
      simp only [Queue.hasRoom, decide_eq_true_eq] at room
      exact insertEntry_keeps e rfl room active
    · exact refuseRoll_keeps e _

theorem queueEvents_keeps (e : Env) (ref : Reference) (l : List HoleEvent) (active : ¬ p.session.ended) :
    Keeps p (queueEvents e ref l p) := by
  unfold queueEvents
  induction l generalizing p with
  | nil => exact .refl p
  | cons ev l ih =>
    rw [List.foldl_cons]
    refine (queueEvent_keeps e ref ev active).trans (ih ?_)
    rcases queueEvent_session_cases e ref ev p with same | ⟨-, ends⟩
    · rwa [same]
    · rw [ends]
      simp [Session.ended, enterEnding]

/-- A drained stream (R45). -/
theorem drainSession_keeps (e : Env) : Keeps p (drainSession e p) := by
  unfold drainSession
  refine .trans (.trans enterEnding_keeps (detector_keeps _)) (.trans (queueEvents_keeps e _ _ ?_) (launchDue_keeps e))
  simp [Session.ended, enterEnding]

end

end Sys2Proof.Machine
end

section
/-! PROOFS. What the lines read, the session requests and live play keep (R5 to R24, R183 to R185). -/

namespace Sys2Proof.Machine

section
variable {p : Performance}

/-! ### Lines (R6 to R8, R11, R12, R33, R45) -/

theorem advancePosition_keeps : Keeps p (onSession advancePosition p) := .sameLines rfl rfl rfl rfl rfl

theorem afterLine_keeps (e : Env) (ref : Reference) (out : Detector × List HoleEvent) (sensor : Bool)
    (active : ¬ p.session.ended) : Keeps p (afterLine e ref out sensor p) := by
  unfold afterLine
  dsimp only
  have read : Keeps p (onSession advancePosition { p with detector := out.1 }) :=
    (detector_keeps out.1).trans advancePosition_keeps
  exact .ite (fun _ => read.trans (faultSession_keeps e _)) fun _ => read.trans (queueEvents_keeps e ref _ active)

theorem faultSession_state (e : Env) (cause : FaultCause) (p : Performance) :
    (faultSession e cause p).session.state = .faulted := rfl

theorem queueEvents_active {e : Env} {ref : Reference} {l : List HoleEvent} (active : ¬ p.session.ended) :
    ¬ (queueEvents e ref l p).session.ended := by
  rcases queueEvents_session_cases e ref l p with same | ⟨-, ends⟩
  · rwa [same]
  · rw [ends]
    simp [Session.ended, enterEnding]

theorem afterLine_active {e : Env} {ref : Reference} {out : Detector × List HoleEvent} {sensor : Bool}
    (active : ¬ p.session.ended) : ¬ (afterLine e ref out sensor p).session.ended := by
  unfold afterLine
  dsimp only
  split
  · rw [Session.ended, faultSession_state]
    decide
  · exact queueEvents_active active

/-- A line that leaves its buffer: the source's buffer loses its oldest line, and nothing else of the session's lines changes. -/
theorem consume_cases {e : Env} {ref : Reference} {p' : Performance} (consumed : consume e ref p = some p') :
    (∃ line rest, p.session.source = .sensor ∧ p.session.sensorBuffer = line :: rest
        ∧ p' = afterLine e ref (p.detector.sensorLine e.map p.session.rollPosition line) true
          (onSession (fun s => { s with sensorBuffer := rest }) p))
      ∨ ∃ line rest, p.session.source = .stream ∧ p.session.streamBuffer = line :: rest
        ∧ p' = afterLine e ref (p.detector.streamLine e.map p.session.rollPosition line) false
          (onSession (fun s => { s with streamBuffer := rest }) p) := by
  unfold consume at consumed
  split at consumed
  · next source =>
    split at consumed
    · cases consumed
    · next line rest lines => exact .inl ⟨line, rest, source, lines, (Option.some.inj consumed).symm⟩
  · next source =>
    split at consumed
    · cases consumed
    · next line rest lines => exact .inr ⟨line, rest, source, lines, (Option.some.inj consumed).symm⟩

theorem consume_keeps {e : Env} {ref : Reference} {p' : Performance} (consumed : consume e ref p = some p')
    (active : ¬ p.session.ended) : Keeps p p' ∧ ¬ p'.session.ended := by
  rcases consume_cases consumed with ⟨line, rest, -, lines, read⟩ | ⟨line, rest, -, lines, read⟩ <;> rw [read]
  · have taken : Keeps p (onSession (fun s => { s with sensorBuffer := rest }) p) :=
      .active active (by simp [lines]) le_rfl (.inl rfl)
    exact ⟨taken.trans (afterLine_keeps e ref _ _ active), afterLine_active active⟩
  · have taken : Keeps p (onSession (fun s => { s with streamBuffer := rest }) p) :=
      .active active le_rfl (by simp [lines]) (.inl rfl)
    exact ⟨taken.trans (afterLine_keeps e ref _ _ active), afterLine_active active⟩

theorem consumePlaying_keeps {e : Env} {p' : Performance} (consumed : consumePlaying e p = some p')
    (active : ¬ p.session.ended) : Keeps p p' := by
  obtain ⟨q, taken, rfl⟩ := Option.map_eq_some_iff.1 consumed
  have read := (consume_keeps taken active).1
  exact .ite (fun _ => read.trans enterEnding_keeps) fun _ => read

theorem continuePlaying_keeps (at_ : Nat) : Keeps p (continuePlaying at_ p) :=
  .ite (fun _ => .sameLines rfl rfl rfl rfl rfl) fun _ => .refl p

theorem consumeThreading_keeps (e : Env) {line : SensorLine} {rest : List SensorLine}
    (lines : p.session.sensorBuffer = line :: rest) (active : ¬ p.session.ended) :
    Keeps p (consumeThreading e line rest p) := by
  unfold consumeThreading
  dsimp only
  have read : ∀ d f, (f p.session).sensorBuffer = rest → (f p.session).streamBuffer = p.session.streamBuffer →
      (f p.session).stepTimer = p.session.stepTimer → (f p.session).state = p.session.state →
      Keeps p (onSession f { p with detector := d }) := by
    intro d f sensor stream timer state
    refine (detector_keeps d).trans (.active ?_ ?_ ?_ (.inl timer))
    · rwa [Session.ended, state]
    · rw [sensor, lines]
      exact Nat.le_succ _
    · exact Nat.le_of_eq (congrArg _ stream)
  have kept := read (p.detector.trackEdges e.map.tracker line) (fun s => { s with
    sensorBuffer := rest
    threadingLines := s.threadingLines + 1
    threadingStable := decide (32 ≤ (p.detector.trackEdges e.map.tracker line).goodRun) }) rfl rfl rfl rfl
  exact .ite (fun _ => kept.trans (faultSession_keeps e _)) fun _ => kept

theorem cueAtDistance_keeps (e : Env) : Keeps p (cueAtDistance e p) :=
  .ite (fun _ => .active (by simp [Session.ended]) le_rfl le_rfl (.inl rfl)) fun _ => .refl p

theorem prepareLine_keeps (e : Env) (at_ : Nat) (active : ¬ p.session.ended) : Keeps p (prepareLine e at_ p) := by
  unfold prepareLine
  split
  · exact .sameLines rfl rfl rfl rfl rfl
  · next line rest lines =>
    dsimp only
    have next : Keeps p (if p.session.threadingStable then (consume e (preRollReference e) p).getD p
        else consumeThreading e line rest p) := by
      refine .ite (fun _ => ?_) fun _ => consumeThreading_keeps e lines active
      cases consumed : consume e (preRollReference e) p with
      | none => exact .refl p
      | some q => exact (consume_keeps consumed active).1
    generalize (if p.session.threadingStable then (consume e (preRollReference e) p).getD p
        else consumeThreading e line rest p) = q at next ⊢
    have cued : Keeps p (if p.session.threadingStable then cueAtDistance e q else q) :=
      .ite (fun _ => next.trans (cueAtDistance_keeps e)) fun _ => next
    exact .ite (fun _ => cued.trans (.sameLines rfl rfl rfl rfl rfl)) fun _ => cued

theorem playLine_keeps (e : Env) (at_ : Nat) (active : ¬ p.session.ended) : Keeps p (playLine e at_ p) := by
  have counted : Keeps p (onSession nextIndex p) := .sameLines rfl rfl rfl rfl rfl
  unfold playLine
  dsimp only
  split
  · next consumed => exact counted.trans ((consumePlaying_keeps consumed active).trans (continuePlaying_keeps _))
  · refine .ite (fun _ => counted.trans (drainSession_keeps e)) fun _ => ?_
    exact (counted.trans (.active (by simp [Session.ended]) le_rfl le_rfl (.inl rfl))).trans
      (onInstrument_keeps e fun _ _ => raiseBoth_sound _)

theorem resumeStarved_keeps (e : Env) : Keeps p (resumeStarved e p) := by
  unfold resumeStarved
  refine .ite (fun _ => .ite (fun _ => ?_) fun _ => .ite (fun _ => drainSession_keeps e) fun _ => .refl p) fun _ => .refl p
  have plays : Keeps p (onSession (fun s => { s with state := .playing }) p) :=
    .active (by simp [Session.ended]) le_rfl le_rfl (.inl rfl)
  have launched := plays.trans (launchDue_keeps e)
  refine .ite (fun playing => launched.trans ?_) fun _ => launched
  refine .trans ?_ (continuePlaying_keeps _)
  cases consumed : consumePlaying e (launchDue e (onSession (fun s => { s with state := .playing }) p)) with
  | none => exact .refl _
  | some q => exact consumePlaying_keeps consumed (by rw [Session.ended, playing]; decide)

theorem consumeStream_keeps (e : Env) (n : Nat) (active : ¬ p.session.ended) : Keeps p (consumeStream e n p) := by
  induction n generalizing p with
  | zero => exact .refl p
  | succ n ih =>
    unfold consumeStream
    split
    · exact .refl p
    · next consumed =>
      obtain ⟨kept, still⟩ := consume_keeps consumed active
      exact kept.trans (ih still)

theorem streamPreRoll_keeps (e : Env) : Keeps p (streamPreRoll e p) := by
  have cued : ∀ q : Performance, Keeps q (onSession (fun s => { s with state := .cued }) q) := fun q =>
    .active (by simp [Session.ended]) le_rfl le_rfl (.inl rfl)
  unfold streamPreRoll
  dsimp only
  refine .ite (fun preparing => ?_) fun _ => .refl p
  have active : ¬ p.session.ended := by rw [Session.ended, preparing.1]; decide
  exact .ite (fun _ => (consumeStream_keeps e _ active).trans (cued _)) fun _ =>
    .ite (fun _ => (consumeStream_keeps e _ active).trans (cued _)) fun _ => .refl p

theorem streamChanged_keeps (e : Env) : Keeps p (streamChanged e p) :=
  (streamPreRoll_keeps e).trans (resumeStarved_keeps e)

theorem takeImage_keeps (samples : SensorLine) : Keeps p (onSession (takeImage samples) p) := by
  by_cases steps : p.session.stepTimer.isSome = true
  · refine .session (fun fits => ?_) fun ended before => ?_
    · rw [takeImage, if_pos steps]
      exact ⟨by simpa using fits.2.1 steps, by simp, fits.2.2⟩
    · rw [takeImage, if_pos steps] at ended
      rw [(before ended).2.2.2.1] at steps
      cases steps
  · have stray : takeImage samples p.session = { p.session with scanStray := p.session.scanStray + 1 } := by
      rw [takeImage, if_neg steps]
    exact .sameLines (by rw [stray]) (by rw [stray]) (by rw [stray]) (by rw [stray]) (by rw [stray])

theorem imageArrived_keeps (e : Env) : Keeps p (imageArrived e p) :=
  .ite (fun preparing => prepareLine_keeps e _ (by rw [Session.ended, preparing.1]; decide)) fun _ =>
    .ite (fun _ => resumeStarved_keeps e) fun _ => .refl p

/-! ### The end of rewinding and of a roll (R22 to R24) -/

theorem reverseOne_keeps (t : Nat) (rewinding : p.session.state = .rewinding) : Keeps p (onSession (reverseOne t) p) :=
  .session id fun _ before => before (.inr rewinding)

theorem rollRemoved_keeps (e : Env) : Keeps p (rollRemoved e p) :=
  .ite (fun _ => faultSession_keeps e _) fun _ =>
    .ite (fun rewinding => .session id fun _ before => before (.inr rewinding)) fun _ => .refl p

theorem endingLimit_keeps (e : Env) : Keeps p (endingLimit e p) :=
  .trans (.trans (onInstrument_keeps e fun _ _ => countRollCuts_sound) (pauseEffects_keeps e)) (discardEntries_keeps _)

theorem changeMonitor_keeps (level : MonitorLevel) (e : Env) : Keeps p (changeMonitor level e p) := by
  have read : Keeps p (onInstrument e (monitorChange level) p) :=
    onInstrument_keeps e fun _ _ sound => monitorChange_sound sound level
  unfold changeMonitor
  exact .ite (fun _ => read.trans (criticalSession_keeps e)) fun _ => read

/-! ### The session requests (R3 to R20) -/

theorem startExpression_keeps (e : Env) : Keeps p (startExpression e p) := expression_keeps _

theorem freeSession_keeps : Keeps p (onSession freeSession p) :=
  .active (by simp [Session.ended, freeSession]) le_rfl le_rfl (.inl rfl)

theorem prepareSession_keeps (now : Nat) : Keeps p (onSession (prepareSession now) p) :=
  .active (by simp [Session.ended, prepareSession]) le_rfl (by simp [prepareSession]) (.inl rfl)

theorem resumeSession_keeps (now : Nat) : Keeps p (onSession (resumeSession now) p) := by
  by_cases ending : p.session.resumeTarget = some .ending
  · have resumed : resumeSession now p.session = { p.session with
        state := .ending, resumeTarget := none, pauseCause := .none } := by rw [resumeSession, if_pos ending]
    refine .active ?_ ?_ ?_ (.inl ?_) <;> rw [resumed]
    simp [Session.ended]
  · have resumed : resumeSession now p.session = beginInterval now { p.session with
        state := .playing
        resumeTarget := none
        pauseCause := .none
        frameIndex := 0
        newFrame := false } := by rw [resumeSession, if_neg ending]
    refine .active ?_ ?_ ?_ (.inl ?_) <;> rw [resumed] <;> simp [Session.ended, beginInterval]

theorem rescale_keeps (pt new old : Nat) : Keeps p { p with queue := p.queue.rescale pt new old } := by
  have perm := rescale_perm pt new old p.queue
  refine ⟨fun ordered => ⟨sortEntries_inOrder _, fun x mem => ?_⟩, fun room => ?_, id, fun before ended => ?_,
    booksKept_of fun b booked => ?_⟩
  · obtain ⟨y, queued, rfl⟩ := List.mem_map.1 (perm.mem_iff.1 mem)
    rw [(show (rescaleEntry pt new old y).order = y.order by unfold rescaleEntry; split <;> rfl)]
    exact ordered.2 y queued
  · rw [perm.length_eq, List.length_map]
    exact room
  · obtain ⟨empty, clear⟩ := before ended
    rw [empty] at perm
    exact ⟨List.perm_nil.1 perm, clear⟩
  · have action : ∀ x, (rescaleEntry pt new old x).action = x.action := by
      intro x
      unfold rescaleEntry
      split <;> rfl
    have same : (p.queue.rescale pt new old).strikes = p.queue.strikes := by
      rw [strikes_perm perm, List.filter_map, List.length_map, Queue.strikes]
      simp only [Function.comp_def, action]
    rwa [Booked, same]

theorem changeTempo_keeps (new : Nat) (e : Env) : Keeps p (changeTempo new e p) :=
  .trans (.trans (rescale_keeps _ _ _) (.sameLines rfl rfl rfl rfl rfl)) (launchDue_keeps e)

theorem appendLines_keeps (lines : List TrackLine) (active : ¬ p.session.ended) : Keeps p (onSession (appendLines lines) p) := by
  refine .session (fun fits => ⟨fits.1, fits.2.1, ?_⟩) fun ended => absurd ended active
  have room := fits.2.2
  simp only [appendLines, List.length_append, List.length_take]
  omega

theorem takesStream_active {x : Session} (takes : x.takesStream = true) : ¬ x.ended := by
  simp only [Session.takesStream, Bool.and_eq_true] at takes
  rintro (state | state) <;> simp [Session.steps, state] at takes

theorem closeStream_keeps (active : ¬ p.session.ended) : Keeps p (onSession (fun s => { s with streamOpen := false }) p) :=
  .active active le_rfl le_rfl (.inl rfl)

/-! ### Live play (R57, R58, R183 to R185) -/

theorem clockRuns_active {x : Session} (runs : x.state.clockRuns = true) : ¬ x.ended := by
  rintro (state | state) <;> simp [SessionState.clockRuns, state] at runs

theorem insertLive_keeps (e : Env) (l : Link) (a : Action) (sounding : Nat) (room : p.queue.entries.length < queueCapacity)
    (active : ¬ p.session.ended) : Keeps p (insertLive e l a sounding p) :=
  insertEntry_keeps e rfl room active

theorem insertLive_active {e : Env} {l : Link} {a : Action} {sounding : Nat} (active : ¬ p.session.ended) :
    ¬ (insertLive e l a sounding p).session.ended := by
  rcases insertEntry_session e (newEntry e.map a (originOf l) sounding none p.queue) p with same | ⟨-, ends⟩
  · exact fun ended => active (same ▸ ended)
  · exact fun ended => absurd (show (enterEnding p.session).ended from ends ▸ ended) (by simp [Session.ended, enterEnding])

theorem insertLive_room (e : Env) (l : Link) (a : Action) (sounding : Nat) (p : Performance) :
    (insertLive e l a sounding p).queue.entries.length ≤ p.queue.entries.length + 1 := by
  unfold insertLive insertEntry
  dsimp only
  split
  · exact (handOver_entries _ _ _).trans (Nat.le_succ _)
  · exact Nat.le_of_eq (placeEntry_perm _ _).length_eq

theorem strikeAt_keeps (l : Link) (x : LiveStrikeFields) (offset : BitVec 16) (e : Env)
    (room : p.queue.entries.length + (1 + x.hold.isSome.toNat) ≤ queueCapacity) (active : ¬ p.session.ended) :
    Keeps p (strikeAt l x offset e p) := by
  unfold strikeAt
  dsimp only
  split
  · exact insertLive_keeps e l _ _ (by omega) active
  · next hold =>
    rw [hold, Option.isSome_some, Bool.toNat_true] at room
    have grown := insertLive_room e l (.strike x.key false x.mode (x.hold.map BitVec.toNat))
      (liveSounding p.session.pt offset) p
    refine .trans (insertLive_keeps e l _ _ (by omega) active) (insertLive_keeps e l _ _ ?_ (insertLive_active active))
    simp only [hold] at grown ⊢
    omega

theorem strikeNow_keeps (l : Link) (x : LiveStrikeFields) (e : Env)
    (room : x.hold.isSome = true → p.queue.entries.length < queueCapacity) (active : x.hold.isSome = true → ¬ p.session.ended) :
    Keeps p (strikeNow l x e p) := by
  have arrives : ∀ q : Performance, Keeps q (onInstrument e (arrive q.expression x.key ⟨originOf l, none, false, x.mode⟩)
      { q with instrument := { q.instrument with accepted := q.instrument.accepted + 1 } }) := fun q =>
    .instrument fun b sound => arrive_sound (accepted_sound 1 sound) _ _ _
  unfold strikeNow
  dsimp only
  cases hold : x.hold with
  | none => exact arrives p
  | some h =>
    exact .trans (insertLive_keeps e l _ _ (room (by rw [hold]; rfl)) (active (by rw [hold]; rfl))) (arrives _)

end

end Sys2Proof.Machine
end

section
/-! PROOFS. What the requests, the claim, the power and the resets keep (R171 to R207). -/

namespace Sys2Proof.Machine

/-! ### What a step keeps -/

/-- What the state keeps through a change: what its performance keeps, the slots of both links within their room, and a link that
holds the claim UP. -/
structure StepKeeps (s s' : State) : Prop where
  perf : Keeps s.perf s'.perf
  slots : (∀ l, (s.link l).slots.length ≤ 2) → ∀ l, (s'.link l).slots.length ≤ 2
  holder : holderIsUp s → holderIsUp s'

theorem StepKeeps.refl (s : State) : StepKeeps s s := ⟨.refl _, id, id⟩

theorem StepKeeps.trans {s t u : State} (first : StepKeeps s t) (second : StepKeeps t u) : StepKeeps s u :=
  ⟨first.perf.trans second.perf, second.slots ∘ first.slots, second.holder ∘ first.holder⟩

theorem StepKeeps.ite {c : Prop} [Decidable c] {s t u : State} (holds : c → StepKeeps s t) (fails : ¬ c → StepKeeps s u) :
    StepKeeps s (if c then t else u) := by
  split
  · next h => exact holds h
  · next h => exact fails h

section
variable {s : State}

/-- A change that leaves the claim and the links. -/
theorem StepKeeps.ofPerf {t : State} (perf : Keeps s.perf t.perf) (claim : t.claim = s.claim) (linkA : t.linkA = s.linkA)
    (linkB : t.linkB = s.linkB) : StepKeeps s t := by
  have link : ∀ l, t.link l = s.link l := fun l => by cases l; exacts [linkA, linkB]
  refine ⟨perf, fun fits l => link l ▸ fits l, fun up h held => ?_⟩
  rw [link]
  exact up h (claim ▸ held)

/-- A change that leaves the performance, the claim and the links. -/
theorem StepKeeps.same {t : State} (perf : t.perf = s.perf) (claim : t.claim = s.claim) (linkA : t.linkA = s.linkA)
    (linkB : t.linkB = s.linkB) : StepKeeps s t :=
  .ofPerf (perf ▸ .refl _) claim linkA linkB

theorem onPerf_stepKeeps {f : Env → Performance → Performance} (keeps : ∀ e p, p = s.perf → Keeps p (f e p)) :
    StepKeeps s (onPerf f s) :=
  .ofPerf (keeps _ _ rfl) rfl rfl rfl

/-- A change of the performance with what follows every change. -/
theorem settled_stepKeeps {f : Env → Performance → Performance} (keeps : ∀ e, Keeps s.perf (f e s.perf)) :
    StepKeeps s (onPerf (fun e p => settle e (f e p)) s) :=
  .ofPerf ((keeps _).trans (settle_keeps _)) rfl rfl rfl

theorem changePerf_stepKeeps {f : Env → Performance → Performance} (keeps : ∀ e, Keeps s.perf (f e s.perf)) :
    StepKeeps s (changePerf f s) :=
  .ite (fun _ => settled_stepKeeps keeps) fun _ => .refl s

/-- A change of a link's record that leaves the link UP where it was, and its slots within their room. -/
theorem setLink_stepKeeps {l : Link} {r : LinkRecord} (up : (s.link l).up = true → r.up = true)
    (slots : (s.link l).slots.length ≤ 2 → r.slots.length ≤ 2) : StepKeeps s (setLink l r s) := by
  refine ⟨by rw [setLink_perf]; exact .refl _, fun fits x => ?_, fun holder h held => ?_⟩
  · by_cases same : x = l
    · subst same
      rw [setLink_link]
      exact slots (fits x)
    · rw [setLink_link_of_ne same]
      exact fits x
  · rw [setLink_claim] at held
    by_cases same : h.link = l
    · rw [same, setLink_link]
      exact up (same ▸ holder h held)
    · rw [setLink_link_of_ne same]
      exact holder h held

/-! ### Requests (R171 to R173, R193, R194) -/

theorem offer_slots_le (item : Item) {r : LinkRecord} (fits : r.slots.length ≤ 2) : (offer item r).slots.length ≤ 2 := by
  unfold offer
  split
  · next free => simpa using free
  · exact fits

theorem offered_stepKeeps (l : Link) (c : Instr) : StepKeeps s (offerRequest l c s) :=
  setLink_stepKeeps (fun up => by rwa [offer_up]) (offer_slots_le _)

/-- A request keeps what its execution keeps on a link that is UP. -/
theorem request_stepKeeps {l : Link} {c : Instr} {run : State → Reply × State}
    (runs : ∀ t, (t.link l).up = true → StepKeeps t (run t).2) : StepKeeps s (request l c run s) := by
  have executed : ∀ t, (t.link l).up = true → StepKeeps t (execute l c run t) := fun t up =>
    (runs t up).trans (setLink_stepKeeps (fun up => by rwa [answer_up])
      (fun fits => by rwa [answer_slots, markAnswered_length]))
  refine .ite (fun receives => .ite (fun _ => ?_) fun _ => .ite (fun _ => ?_) fun _ => offered_stepKeeps l c) fun _ => .refl s
  · rw [Bool.and_eq_true] at receives
    exact executed s receives.1
  · rw [Bool.and_eq_true] at receives
    refine (offered_stepKeeps l c).trans (executed _ ?_)
    rw [offerRequest, setLink_link, offer_up]
    exact receives.1

theorem require_stepKeeps {test : State → Bool} {result : Result} {next : State → Reply × State}
    (passed : test s = true → StepKeeps s (next s).2) : StepKeeps s (require test result next s).2 :=
  require_keeps (P := StepKeeps s) (.refl s) passed

theorem requireValue_stepKeeps {α : Type} {value : Option α} {next : α → State → Reply × State}
    (given : ∀ x, value = some x → StepKeeps s (next x s).2) : StepKeeps s (requireValue value next s).2 :=
  requireValue_keeps (P := StepKeeps s) (.refl s) given

theorem accept_stepKeeps {f : Env → Performance → Performance} (keeps : ∀ e, Keeps s.perf (f e s.perf)) :
    StepKeeps s (accept f s).2 :=
  settled_stepKeeps keeps

theorem dropClaim_stepKeeps : StepKeeps s (dropClaim s) :=
  ⟨.refl _, id, fun _ _ held => by cases held⟩

theorem grantLease_stepKeeps {l : Link} (up : (s.link l).up = true) (second : Bool) : StepKeeps s (grantLease l second s) :=
  ⟨.refl _, id, fun _ _ held => by cases held; exact up⟩

theorem mapInstrument_stepKeeps {f : Instrument → Instrument} (same : ∀ i, SameBooks i (f i)) :
    StepKeeps s (mapInstrument f s) :=
  .ofPerf (.instrument fun _ sound => sound.same (same _)) rfl rfl rfl

/-! ### The working map (R78, R150) -/

theorem changeMap_stepKeeps (new : RegulationMap) (supply : Bool) : StepKeeps s (changeMap new supply s) := by
  unfold changeMap
  dsimp only
  have written : StepKeeps s { s with
      map := new
      perf := { s.perf with
        expression := newStepPeriod s.perf.now s.map new s.perf.session s.perf.expression } } :=
    .ofPerf (expression_keeps _) rfl rfl rfl
  refine .ite (fun _ => written.trans (settled_stepKeeps fun e => ?_)) fun _ => written
  exact onInstrument_keeps e fun _ _ => newSupplyRecord_sound

/-! ### Live requests (R182 to R185) -/

theorem requireLive_stepKeeps {needsClock : Bool} {places : Nat} {next : State → Reply × State}
    (passed : (needsClock = true → s.perf.session.state.clockRuns = true) → s.perf.queue.entries.length + places ≤ queueCapacity →
      StepKeeps s (next s).2) : StepKeeps s (requireLive needsClock places next s).2 := by
  refine require_stepKeeps fun _ => require_stepKeeps fun clock => require_stepKeeps fun room => ?_
  refine passed (fun needs => ?_) (by simpa [Queue.hasRoom] using room)
  rw [needs] at clock
  exact clock

theorem liveStrike_stepKeeps (l : Link) (key options velocity : Byte) (offset holdLength : BitVec 16) :
    StepKeeps s (runLiveStrike l key options velocity offset holdLength s).2 := by
  refine require_stepKeeps fun _ => requireValue_stepKeeps fun x _ => requireLive_stepKeeps fun clock room => ?_
  refine settled_stepKeeps (f := fun e p => if x.at_ = true then strikeAt l x offset e p else strikeNow l x e p) fun e => ?_
  unfold LiveStrikeFields.places at room
  refine .ite (fun at_ => ?_) fun _ => ?_
  · rw [at_, Bool.toNat_true] at room
    exact strikeAt_keeps l x offset e room (clockRuns_active (clock (by rw [at_]; rfl)))
  · refine strikeNow_keeps l x e (fun hold => ?_) fun hold => clockRuns_active (clock (by rw [hold, Bool.or_true]))
    rw [hold, Bool.toNat_true] at room
    omega

theorem actLive_stepKeeps (l : Link) (at_ : Bool) (offset : BitVec 16) (a : Action) {now : Moment → Instrument → Instrument}
    (sound : ∀ m b i, Sound b i → Sound b (now m i)) : StepKeeps s (actLive l at_ offset a now s).2 := by
  refine requireLive_stepKeeps fun clock room => settled_stepKeeps
    (f := fun e p => if at_ = true then insertLive e l a (liveSounding p.session.pt offset) p else onInstrument e now p)
    fun e => ?_
  refine .ite (fun timed => ?_) fun _ => onInstrument_keeps e fun m b => sound m b _
  rw [timed, Bool.toNat_true] at room
  exact insertLive_keeps e l _ _ (by omega) (clockRuns_active (clock timed))

/-! ### The lapse of the claim, the links, and the power (R174, R175, R190, R204, R205) -/

theorem lapseClaim_stepKeeps : StepKeeps s (lapseClaim s) := by
  have noticed : StepKeeps s (mapInstrument (raiseBoth .claimLapsed) (dropClaim s)) :=
    dropClaim_stepKeeps.trans (mapInstrument_stepKeeps fun _ => ⟨rfl, rfl, rfl, rfl, rfl, rfl, rfl⟩)
  unfold lapseClaim
  exact noticed.trans (settled_stepKeeps (f := lapseSession) fun e => lapseSession_keeps e)

/-- A link that goes DOWN loses the claim that it holds. -/
theorem withLinkLost_stepKeeps (l : Link) : StepKeeps s (withLinkLost l s) := by
  have down : Keeps s.perf (setLink l (s.link l).goDown s).perf := by rw [setLink_perf]; exact .refl _
  have slots : (∀ x, (s.link x).slots.length ≤ 2) → ∀ x, ((setLink l (s.link l).goDown s).link x).slots.length ≤ 2 := by
    intro fits x
    by_cases same : x = l
    · subst same
      rw [setLink_link]
      exact Nat.zero_le 2
    · rw [setLink_link_of_ne same]
      exact fits x
  unfold withLinkLost
  split
  · have lapsed := lapseClaim_stepKeeps (s := setLink l (s.link l).goDown s)
    exact ⟨down.trans lapsed.perf, lapsed.slots ∘ slots, fun _ h held => by cases held⟩
  · next notHolder =>
    refine ⟨down, slots, fun holder h held => ?_⟩
    rw [setLink_claim] at held
    have other : h.link ≠ l := by
      intro same
      rw [holds_of_held held] at notHolder
      exact notHolder (decide_eq_true same)
    rw [setLink_link_of_ne other]
    exact holder h held

theorem wake_stepKeeps : StepKeeps s (wake s) := by
  rw [wake_eq]
  exact .same rfl rfl rfl rfl

theorem stopReceiving_stepKeeps (power : Power) : StepKeeps s { s with
    power := power, linkA := s.linkA.stopReceiving, linkB := s.linkB.stopReceiving } :=
  ⟨.refl _, fun fits l => by cases l; exacts [fits .a, fits .b], fun up h held => by
    have kept := up h held
    cases link : h.link <;> rw [link] at kept <;> exact kept⟩

theorem enterStandby_stepKeeps : StepKeeps s (enterStandby s) := by
  have entered := stopReceiving_stepKeeps (s := s) { s.power with state := .standby }
  exact .ite (fun _ => .ite (fun _ => entered.trans wake_stepKeeps) fun _ => entered) fun _ => .refl s

theorem resumeSending_stepKeeps (l : Link) : StepKeeps s (resumeSending l s) :=
  .ite (fun _ => setLink_stepKeeps (fun up => by rwa [startTransmission_up]) (fun fits => by rwa [startTransmission_slots]))
    fun _ => .refl s

theorem readMonitor_stepKeeps : StepKeeps s (readMonitor s) :=
  .ite (fun _ => settled_stepKeeps fun e => changeMonitor_keeps _ e) fun _ => .refl s

theorem endStabilisation_stepKeeps (t : Nat) : StepKeeps s (endStabilisation t s) := by
  have runs : StepKeeps s (runningAgain t s) :=
    ⟨advance_keeps _, fun fits l => by cases l; exacts [fits .a, fits .b], fun up h held => by
      have kept := up h held
      cases link : h.link <;> rw [link] at kept <;> exact kept⟩
  rw [endStabilisation_eq]
  exact ((runs.trans readMonitor_stepKeeps).trans (resumeSending_stepKeeps .a)).trans (resumeSending_stepKeeps .b)

/-! ### Counters cleared, and the resets (R1, R202, R206, R207) -/

theorem clearPerformance_keeps (p : Performance) : Keeps p (clearPerformance p) := by
  refine ⟨id, id, id, id, fun b booked => ⟨0, ?_, fun _ => rfl⟩⟩
  refine ⟨booked.once, booked.key, booked.pedal, booked.units, ?_⟩
  show BitVec.ofNat 32 (p.queue.strikes + keyStrikes p.instrument)
    = 0 + 0 + 0 + 0 + BitVec.ofNat 32 (keyStrikes p.instrument) + (BitVec.ofNat 32 p.queue.strikes + 0)
  rw [BitVec.ofNat_add]
  ring

theorem runClearCounters_stepKeeps : StepKeeps s (runClearCounters s).2 :=
  ⟨clearPerformance_keeps _, fun fits l => by cases l; exacts [fits .a, fits .b], fun up h held => by
    have kept := up h held
    cases link : h.link <;> rw [link] at kept <;> exact kept⟩

theorem instrumentReset_sound (level : MonitorLevel) : Sound 0 (.reset level) := by
  have keys : ∀ f : KeyRecord → Nat, f .reset = 0 → (((Instrument.reset level).keys.toList).map f).sum = 0 := by
    intro f zero
    simp [Instrument.reset, zero]
  refine ⟨List.nodup_nil, fun k => ?_, fun d => ?_, ?_, ?_⟩
  · have reset : (Instrument.reset level).keys[k] = .reset := by simp [Instrument.reset]
    rw [reset]
    exact ⟨by simp [Instrument.waiting, Instrument.reset, KeyRecord.reset], by simp [KeyRecord.reset],
      by simp [KeyRecord.reset]⟩
  · cases d <;>
      exact ⟨by simp [Instrument.waiting, Instrument.reset, Instrument.pedal, PedalRecord.reset],
        by simp [Instrument.reset, Instrument.pedal, PedalRecord.reset],
        by simp [Instrument.reset, Instrument.pedal, PedalRecord.reset]⟩
  · rw [chargesOf, keys _ rfl]
    rfl
  · rw [keyStrikes, keys _ rfl]
    rfl

theorem performanceReset_keeps (p : Performance) (restLevel : Nat) (level : MonitorLevel) :
    Keeps p (.reset restLevel level) :=
  ⟨fun _ => ⟨.nil, by simp [Performance.reset, Queue.reset]⟩, fun _ => Nat.zero_le _,
    fun _ => ⟨Nat.zero_le _, by simp [Performance.reset, Session.reset], Nat.zero_le _⟩,
    fun _ _ => ⟨rfl, rfl, rfl, rfl, rfl⟩, fun _ _ => ⟨0, instrumentReset_sound level, fun _ => rfl⟩⟩

theorem startUp_stepKeeps (store : Store) (power : Power) (t : State) : StepKeeps s (startUp store power t) :=
  ⟨performanceReset_keeps _ _ _, fun _ l => by cases l <;> exact Nat.zero_le 2, fun _ _ held => by cases held⟩

theorem resetPart_stepKeeps (cause : ResetCause) (t : State) : StepKeeps s (resetPart cause t) :=
  resetPart_eq cause t ▸ (startUp_stepKeeps _ (powerAfter cause t.pins.resetLine t) t).trans (.same rfl rfl rfl rfl)

end

end Sys2Proof.Machine
end

section
/-! PROOFS. What every command and every step keeps (O55, O57, O58, O59). -/

namespace Sys2Proof.Machine

/-! ### The records of the links (R188 to R198) -/

/-- A link's record stays UP, and its slots within their room. -/
structure LinkKeeps (r r' : LinkRecord) : Prop where
  up : r.up = true → r'.up = true
  slots : r.slots.length ≤ 2 → r'.slots.length ≤ 2

theorem LinkKeeps.refl (r : LinkRecord) : LinkKeeps r r := ⟨id, id⟩

theorem LinkKeeps.trans {q r t : LinkRecord} (first : LinkKeeps q r) (second : LinkKeeps r t) : LinkKeeps q t :=
  ⟨second.up ∘ first.up, second.slots ∘ first.slots⟩

section
variable {r : LinkRecord}

/-- A change that leaves the link UP or DOWN, with its slots. -/
theorem LinkKeeps.same {r' : LinkRecord} (up : r'.up = r.up) (slots : r'.slots = r.slots) : LinkKeeps r r' :=
  ⟨fun h => up ▸ h, fun h => slots ▸ h⟩

theorem offer_linkKeeps (item : Item) : LinkKeeps r (offer item r) := ⟨fun up => by rwa [offer_up], offer_slots_le item⟩

theorem discard_linkKeeps (reason : DiscardReason) (next : Receiver) : LinkKeeps r (discard reason next r) :=
  (offer_linkKeeps (.discard reason r.receiver.kind)).trans (.same rfl rfl)

theorem startTransmission_linkKeeps : LinkKeeps r (startTransmission r) :=
  .same (startTransmission_up r) (startTransmission_slots r)

theorem answer_linkKeeps (m : Message) (after : Option AfterAction) : LinkKeeps r (answer m after r) :=
  ⟨fun up => by rwa [answer_up], fun fits => by rwa [answer_slots, markAnswered_length]⟩

theorem complete_linkKeeps (l : Link) (kind : Byte) (body : List Byte) (sum : Byte) : LinkKeeps r (complete l kind body sum r) := by
  unfold complete
  split
  · exact discard_linkKeeps _ _
  · split
    · exact (offer_linkKeeps _).trans (.same rfl rfl)
    · exact discard_linkKeeps _ _

theorem takeData_linkKeeps (l : Link) (data : Byte) : LinkKeeps r (takeData l data r) := by
  unfold takeData
  split
  case h_1 => exact .same rfl rfl
  case h_2 => exact discard_linkKeeps _ _
  case h_3 =>
    split
    · exact discard_linkKeeps _ _
    · split <;> exact .same rfl rfl
  case h_4 =>
    dsimp only
    split <;> exact .same rfl rfl
  case h_5 => exact complete_linkKeeps l _ _ _

theorem takeMarked_linkKeeps (data : Byte) : LinkKeeps r (takeMarked data r) := by
  unfold takeMarked
  split
  case h_3 => exact discard_linkKeeps _ _
  all_goals exact .same rfl rfl

theorem takeSpoilt_linkKeeps (reason : DiscardReason) : LinkKeeps r (takeSpoilt reason r) := by
  unfold takeSpoilt
  split
  · exact .same rfl rfl
  · exact discard_linkKeeps _ _

theorem takeCharacter_linkKeeps (l : Link) (c : Received) : LinkKeeps r (takeCharacter l c r) := by
  unfold takeCharacter
  split
  · exact takeData_linkKeeps l _
  · exact takeMarked_linkKeeps _
  · exact takeSpoilt_linkKeeps _

theorem takeBreak_linkKeeps : LinkKeeps r (takeBreak r) := by
  unfold takeBreak
  split
  · exact .same rfl rfl
  · exact discard_linkKeeps _ _

theorem freeSlot_linkKeeps : LinkKeeps r (freeSlot r) := by
  unfold freeSlot
  split
  · next x rest slots =>
    split
    · exact ⟨id, fun fits => by rw [slots] at fits; exact (Nat.le_succ _).trans fits⟩
    · exact .refl r
  · exact .refl r

theorem sent_linkKeeps : LinkKeeps r r.sent := by
  unfold LinkRecord.sent
  split
  · have ended : LinkKeeps r { r with sending := none } := .same rfl rfl
    exact ended.trans freeSlot_linkKeeps
  · exact .same rfl rfl
  · exact .refl r

theorem changeRate_linkKeeps (rate : Rate) : LinkKeeps r (r.changeRate rate) := by
  unfold LinkRecord.changeRate
  dsimp only
  split
  · exact .same rfl rfl
  · exact (discard_linkKeeps .truncated .waitBreak).trans (.same rfl rfl)

end

section
variable {s : State}

theorem LinkKeeps.stepKeeps {l : Link} {r : LinkRecord} (kept : LinkKeeps (s.link l) r) : StepKeeps s (setLink l r s) :=
  setLink_stepKeeps kept.up kept.slots

/-! ### The events of the links (R188 to R198) -/

theorem execCharacter_keeps (l : Link) (samples : BitVec 33) (s : State) :
    ∃ t, execCharacter l samples s = .next t ∧ StepKeeps s t := by
  refine ⟨_, rfl, .ite (fun _ => ?_) fun _ => .refl s⟩
  split
  · have heard : LinkKeeps (s.link l) (lineAfter samples (s.link l)) := .same rfl rfl
    exact (heard.trans (takeCharacter_linkKeeps l _)).stepKeeps
  · exact .refl s

theorem execBreak_keeps (l : Link) (s : State) : ∃ t, execBreak l s = .next t ∧ StepKeeps s t := by
  have disarmed : LinkKeeps (s.link l) (s.link l).disarm := .same rfl rfl
  have low : StepKeeps s (setLink l { s.link l with lineHigh := false } s) := LinkKeeps.stepKeeps (.same rfl rfl)
  refine ⟨_, rfl, .ite (fun _ => ?_) fun _ => low⟩
  split
  · exact (disarmed.trans takeBreak_linkKeeps).stepKeeps
  · exact disarmed.stepKeeps.trans wake_stepKeeps
  · exact low
  · exact .refl s

theorem execIdleTruncation_keeps (l : Link) (s : State) : ∃ t, execIdleTruncation l s = .next t ∧ StepKeeps s t := by
  refine ⟨_, rfl, .ite (fun _ => LinkKeeps.stepKeeps ?_) fun _ => .refl s⟩
  exact (discard_linkKeeps .truncated .waitBreak).trans (.same rfl rfl)

theorem execLinkDown_keeps (l : Link) (s : State) : ∃ t, execLinkDown l s = .next t ∧ StepKeeps s t := by
  have lost : StepKeeps s (if (setLink l (s.link l).goDown s).holds l then lapseClaim (setLink l (s.link l).goDown s)
      else setLink l (s.link l).goDown s) := by
    rw [setLink_holds]
    exact withLinkLost_stepKeeps l
  exact ⟨_, rfl, .ite (fun _ => .ite (fun _ => lost.trans enterStandby_stepKeeps) fun _ => lost) fun _ => .refl s⟩

theorem execLinkUp_keeps (l : Link) (s : State) : ∃ t, execLinkUp l s = .next t ∧ StepKeeps s t :=
  ⟨_, rfl, .ite (fun _ => .refl s) fun _ => setLink_stepKeeps (fun _ => rfl) id⟩

theorem execDiscardRecord_keeps (l : Link) (s : State) : ∃ t, execDiscardRecord l s = .next t ∧ StepKeeps s t := by
  refine ⟨_, rfl, .ite (fun _ => ?_) fun _ => .refl s⟩
  split
  · exact (answer_linkKeeps _ _).stepKeeps
  · exact .refl s

theorem execNotice_keeps (l : Link) (s : State) : ∃ t, execNotice l s = .next t ∧ StepKeeps s t := by
  refine ⟨_, rfl, .ite (fun _ => ?_) fun _ => .refl s⟩
  have taken : StepKeeps s (mapInstrument
      (fun i => setPendingNotices l (pendingNotices l i &&& ~~~s.noticeKinds l) i) s) :=
    mapInstrument_stepKeeps fun i => by cases l <;> exact ⟨rfl, rfl, rfl, rfl, rfl, rfl, rfl⟩
  exact taken.trans (LinkKeeps.stepKeeps (.same rfl rfl))

theorem execLinkRateChange_keeps (l : Link) (s : State) : ∃ t, execLinkRateChange l s = .next t ∧ StepKeeps s t := by
  refine ⟨_, rfl, ?_⟩
  split
  · next rate _ =>
    have taken : LinkKeeps (s.link l) ((s.link l).done (.rate rate)) := .same rfl rfl
    exact (taken.trans (changeRate_linkKeeps rate)).stepKeeps.trans (resumeSending_stepKeeps l)
  · exact .refl s

theorem execMessageSent_keeps (l : Link) (s : State) : ∃ t, execMessageSent l s = .next t ∧ StepKeeps s t :=
  ⟨_, rfl, sent_linkKeeps.stepKeeps.trans (resumeSending_stepKeeps l)⟩

/-! ### The events of the power and the store (R138, R167, R174, R204 to R207) -/

theorem execStandbyEntry_keeps (l : Link) (s : State) : ∃ t, execStandbyEntry l s = .next t ∧ StepKeeps s t := by
  have taken : StepKeeps s (setLink l ((s.link l).done .standby) s) := LinkKeeps.stepKeeps (.same rfl rfl)
  exact ⟨_, rfl, .ite (fun _ => (taken.trans enterStandby_stepKeeps).trans (resumeSending_stepKeeps l)) fun _ => .refl s⟩

theorem setPins_stepKeeps (f : Pins → Pins) : StepKeeps s (setPins f s) := .same rfl rfl rfl rfl

theorem execStabilisationEnd_keeps (s : State) : ∃ t, execStabilisationEnd s = .next t ∧ StepKeeps s t := by
  unfold execStabilisationEnd
  split
  · exact ⟨_, rfl, endStabilisation_stepKeeps _⟩
  · exact ⟨_, rfl, .refl s⟩

theorem execServiceLine_keeps (asserted : Bool) (s : State) : ∃ t, execServiceLine asserted s = .next t ∧ StepKeeps s t :=
  ⟨_, rfl, .ite (fun _ => (setPins_stepKeeps _).trans wake_stepKeeps) fun _ => setPins_stepKeeps _⟩

theorem execRollPresentChange_keeps (asserted : Bool) (s : State) :
    ∃ t, execRollPresentChange asserted s = .next t ∧ StepKeeps s t :=
  ⟨_, rfl, .ite (fun _ => .ite (fun _ => setPins_stepKeeps _) fun _ => (setPins_stepKeeps _).trans wake_stepKeeps)
    fun _ => (setPins_stepKeeps _).trans (changePerf_stepKeeps fun e => rollRemoved_keeps e)⟩

theorem execResetLine_keeps (s : State) : ∃ t, execResetLine s = .next t ∧ StepKeeps s t :=
  ⟨_, rfl, .ite (fun _ => setPins_stepKeeps _) fun _ => resetPart_stepKeeps _ _⟩

theorem execResetLineDeassertion_keeps (s : State) : ∃ t, execResetLineDeassertion s = .next t ∧ StepKeeps s t :=
  ⟨_, rfl, .ite (fun _ => startUp_stepKeeps _ _ _) fun _ => setPins_stepKeeps _⟩

theorem execLeaseEnd_keeps (s : State) : ∃ t, execLeaseEnd s = .next t ∧ StepKeeps s t := by
  unfold execLeaseEnd
  split
  · next h _ =>
    have passed : StepKeeps s (passTo h.leaseEnd s) := .ofPerf (advance_keeps _) rfl rfl rfl
    exact ⟨_, rfl, .ite (fun _ => .refl s) fun _ => passed.trans lapseClaim_stepKeeps⟩
  · exact ⟨_, rfl, .refl s⟩

theorem execEraseEnd_keeps (s : State) : ∃ t, execEraseEnd s = .next t ∧ StepKeeps s t := by
  unfold execEraseEnd
  split
  · exact ⟨_, rfl, .ofPerf (advance_keeps _) rfl rfl rfl⟩
  · exact ⟨_, rfl, .refl s⟩

theorem execCommitCompletion_keeps (s : State) : ∃ t, execCommitCompletion s = .next t ∧ StepKeeps s t := by
  unfold execCommitCompletion
  split
  · next t _ =>
    exact ⟨_, rfl, .ofPerf ((advance_keeps _).trans (.instrument fun _ => raiseBoth_sound .profileDone)) rfl rfl rfl⟩
  · exact ⟨_, rfl, .refl s⟩

/-! ### The events of the performance (chapters 1, 3 to 7) -/

theorem execScanImage_keeps (samples : SensorLine) (s : State) : ∃ t, execScanImage samples s = .next t ∧ StepKeeps s t := by
  refine ⟨_, rfl, ?_⟩
  split
  · exact changePerf_stepKeeps (f := fun e p => imageArrived e (onSession (takeImage samples) p))
      fun e => (takeImage_keeps samples).trans (imageArrived_keeps e)
  · exact .refl s
  · exact onPerf_stepKeeps fun _ _ _ => takeImage_keeps samples

theorem launchNext_keeps {p : Performance} (e : Env) (bound : Nat) : Keeps p ((launchFirst e bound p).getD p) := by
  cases launched : launchFirst e bound p with
  | none => exact .refl p
  | some q => exact launchFirst_keeps launched

/-- The end of an interval of the session is a moment of a session that is not over. -/
theorem preparingEnd_active {x : Session} {preRoll : Bool} {t : Nat} (moment : x.preparingEnd preRoll = some t) : ¬ x.ended := by
  unfold Session.preparingEnd at moment
  split at moment
  · next preparing => rw [Session.ended, preparing.1]; decide
  · cases moment

theorem playingEnd_active {x : Session} {t : Nat} (moment : x.playingEnd = some t) : ¬ x.ended := by
  unfold Session.playingEnd at moment
  split at moment
  · next playing => rw [Session.ended, playing]; decide
  · cases moment

theorem rewindingAt_state {x : Session} {t : Nat} (moment : x.rewindingAt = some t) : x.state = .rewinding := by
  unfold Session.rewindingAt at moment
  split at moment
  · next rewinding => exact rewinding
  · cases moment

theorem driveMoment_state {k : Key} {i : Instrument} {t : Nat} (moment : driveMoment k i = some t) : i.keys[k].state = .drive := by
  unfold driveMoment at moment
  split at moment
  · next drive => exact drive
  · cases moment

theorem travelMoment_state {state : PedalState} {d : PedalName} {i : Instrument} {t : Nat}
    (moment : travelMoment state d i = some t) : (i.pedal d).state = state := by
  unfold travelMoment at moment
  split at moment
  · next travels => exact travels
  · cases moment

theorem advanceTo_active {p : Performance} {t : Nat} (active : ¬ p.session.ended) : ¬ (advanceTo t p).session.ended := by
  rwa [Session.ended, advanceTo, advance_state]

theorem advanceTo_instrument (t : Nat) (p : Performance) : (advanceTo t p).instrument = p.instrument := advance_instrument ..

theorem expressionStep_keeps {p : Performance} (e : Env) : Keeps p (expressionStep e p) := by
  unfold expressionStep
  exact atMoment_keeps fun _ _ => expression_keeps _

theorem pedalNow_sound {b : Counter} {i : Instrument} (m : Moment) (sound : Sound b i) (l : Link) (d : PedalName) (up : Bool) :
    Sound b (pedalNow l d up m i) := by
  unfold pedalNow
  split
  · exact pedalUp_sound sound d _
  · exact pedalDown_sound sound d _

/-- The events of the performance. -/
theorem moment_stepKeeps {moment : Env → Performance → Option Nat} {f : Env → Nat → Performance → Performance}
    (keeps : ∀ e t, moment e s.perf = some t → Keeps (advanceTo t s.perf) (f e t (advanceTo t s.perf))) :
    StepKeeps s (changePerf (fun e p => atMoment (moment e p) (f e) p) s) :=
  changePerf_stepKeeps fun e => atMoment_keeps fun t => keeps e t

/-! ### Every command, and every step -/

/-- A request keeps what its execution keeps. -/
theorem exec_request_keeps {l : Link} {c : Instr} {run : State → Reply × State}
    (dispatched : exec c s = .next (request l c run s)) (runs : ∀ t, (t.link l).up = true → StepKeeps t (run t).2) :
    ∃ t, exec c s = .next t ∧ StepKeeps s t :=
  ⟨_, dispatched, request_stepKeeps runs⟩

/-- The changes that a request of a session makes, and a claim check before them. -/
theorem writeRecord_stepKeeps (l : Link) (selector index : Byte) (contents : List Byte) :
    StepKeeps s (runWriteRecord l selector index contents s).2 :=
  require_stepKeeps fun _ => require_stepKeeps fun _ => requireValue_stepKeeps fun _ _ => changeMap_stepKeeps _ _

theorem loadProfile_stepKeeps (l : Link) (profile boot : Byte) : StepKeeps s (runLoadProfile l profile boot s).2 := by
  refine require_stepKeeps fun _ => requireValue_stepKeeps fun v _ => require_stepKeeps fun _ => require_stepKeeps fun _ =>
    require_stepKeeps fun _ => ?_
  have chosen : StepKeeps s
      (onStore (fun t => { t with active := v.1, bootChoice := if v.2 then v.1 else t.bootChoice }) s) :=
    .same rfl rfl rfl rfl
  show StepKeeps s (loadProfile v.1 v.2 s)
  unfold loadProfile
  exact chosen.trans (changeMap_stepKeeps _ _)

theorem commitProfile_stepKeeps (l : Link) (profile boot : Byte) : StepKeeps s (runCommitProfile l profile boot s).2 :=
  require_stepKeeps fun _ => requireValue_stepKeeps fun _ _ => require_stepKeeps fun _ => require_stepKeeps fun _ =>
    .same rfl rfl rfl rfl

theorem setProtection_stepKeeps (l : Link) (profile protection : Byte) :
    StepKeeps s (runSetProtection l profile protection s).2 :=
  require_stepKeeps fun _ => requireValue_stepKeeps fun _ _ => require_stepKeeps fun _ => require_stepKeeps fun _ =>
    .same rfl rfl rfl rfl

theorem streamLines_stepKeeps (l : Link) (count : Byte) (lines : List (BitVec 104)) :
    StepKeeps s (runStreamLines l count lines s).2 := by
  refine require_stepKeeps fun _ => require_stepKeeps fun takes => requireValue_stepKeeps fun _ _ => ?_
  exact accept_stepKeeps (f := fun e p => streamChanged e (onSession (appendLines (lines.map trackLineOf)) p))
    fun e => (appendLines_keeps _ (takesStream_active takes)).trans (streamChanged_keeps e)

theorem setAdmission_stepKeeps (l : Link) (code : Byte) : StepKeeps s (runSetAdmission l code s).2 :=
  require_stepKeeps fun _ => requireValue_stepKeeps fun _ _ => ⟨.refl _, id, fun up h held => up h held⟩

theorem renew_stepKeeps {l : Link} (phase : Byte) (up : (s.link l).up = true) : StepKeeps s (runRenew l phase s).2 :=
  require_stepKeeps fun _ => requireValue_stepKeeps fun _ _ => require_stepKeeps fun _ => grantLease_stepKeeps up _

theorem claim_stepKeeps {l : Link} (up : (s.link l).up = true) : StepKeeps s (runClaim l s).2 :=
  require_stepKeeps fun _ => require_stepKeeps fun _ => grantLease_stepKeeps up _

theorem askYield_stepKeeps (l : Link) : StepKeeps s (runAskYield l s).2 :=
  require_stepKeeps fun _ => require_stepKeeps fun _ =>
    mapInstrument_stepKeeps fun i => by cases l <;> exact ⟨rfl, rfl, rfl, rfl, rfl, rfl, rfl⟩

/-- A session request keeps what the change that it accepts keeps. -/
theorem accepted_stepKeeps {l : Link} {states : State → Bool} {f : Env → Performance → Performance}
    (keeps : ∀ e, Keeps s.perf (f e s.perf)) :
    StepKeeps s (require (fun s => s.holds l) .notHolder (require states .badState (accept f)) s).2 :=
  require_stepKeeps fun _ => require_stepKeeps fun _ => accept_stepKeeps keeps

theorem prepare_stepKeeps (l : Link) : StepKeeps s (runPrepare l s).2 := by
  refine require_stepKeeps fun _ => require_stepKeeps fun _ => require_stepKeeps fun _ => ?_
  refine accept_stepKeeps (f := fun e p =>
    startExpression e (onSession (prepareSession p.now) { p with detector := p.detector.prepare })) fun e => ?_
  exact ((detector_keeps _).trans (prepareSession_keeps _)).trans (startExpression_keeps e)

theorem play_stepKeeps (l : Link) : StepKeeps s (runPlay l s).2 := by
  refine require_stepKeeps fun _ => require_stepKeeps fun _ => require_stepKeeps fun _ => ?_
  exact accept_stepKeeps (f := fun e p => launchDue e (onSession (resumeSession p.now) p))
    fun e => (resumeSession_keeps _).trans (launchDue_keeps e)

theorem setTempo_stepKeeps (l : Link) (period : BitVec 24) : StepKeeps s (runSetTempo l period s).2 :=
  require_stepKeeps fun _ => require_stepKeeps fun _ => requireValue_stepKeeps fun new _ =>
    accept_stepKeeps (f := changeTempo new) fun e => changeTempo_keeps new e

theorem selectSource_stepKeeps (l : Link) (code : Byte) : StepKeeps s (runSelectSource l code s).2 :=
  require_stepKeeps fun _ => require_stepKeeps fun _ => requireValue_stepKeeps fun source _ =>
    accept_stepKeeps (f := fun _ => onSession fun s => { s with source := source }) fun _ => .sameLines rfl rfl rfl rfl rfl

theorem setTrim_stepKeeps (l : Link) (trim : Byte) : StepKeeps s (runSetTrim l trim s).2 :=
  require_stepKeeps fun _ => requireValue_stepKeeps fun _ _ => onPerf_stepKeeps fun _ _ _ => expression_keeps _

/-- Every command is answered with a next state, and keeps what a step keeps. -/
theorem exec_keeps (c : Instr) (s : State) : ∃ t, exec c s = .next t ∧ StepKeeps s t := by
  cases c with
  | readStatus | readQueue | unknownRequest => exact exec_request_keeps rfl fun t _ => .refl t
  | readCounters | readKey | setLinkRate =>
    exact exec_request_keeps rfl fun t _ => requireValue_stepKeeps fun _ _ => .refl t
  | linkReset => exact exec_request_keeps rfl fun t _ => require_stepKeeps fun _ => .refl t
  | clearCounters => exact exec_request_keeps rfl fun _ _ => runClearCounters_stepKeeps
  | yieldClaim => exact exec_request_keeps rfl fun _ _ => require_stepKeeps fun _ => dropClaim_stepKeeps
  | standby =>
    exact exec_request_keeps rfl fun _ _ => require_stepKeeps fun _ => require_stepKeeps fun _ => dropClaim_stepKeeps
  | claim => exact exec_request_keeps rfl fun _ up => claim_stepKeeps up
  | renew l phase => exact exec_request_keeps rfl fun _ up => renew_stepKeeps phase up
  | askYield l => exact exec_request_keeps rfl fun _ _ => askYield_stepKeeps l
  | setAdmission l code => exact exec_request_keeps rfl fun _ _ => setAdmission_stepKeeps l code
  | setNoticeMask =>
    exact exec_request_keeps rfl fun _ _ => requireValue_stepKeeps fun _ _ => LinkKeeps.stepKeeps (.same rfl rfl)
  | setTrim l trim => exact exec_request_keeps rfl fun _ _ => setTrim_stepKeeps l trim
  | selectSource l code => exact exec_request_keeps rfl fun _ _ => selectSource_stepKeeps l code
  | prepare l => exact exec_request_keeps rfl fun _ _ => prepare_stepKeeps l
  | play l => exact exec_request_keeps rfl fun _ _ => play_stepKeeps l
  | setTempo l period => exact exec_request_keeps rfl fun _ _ => setTempo_stepKeeps l period
  | streamLines l count lines => exact exec_request_keeps rfl fun _ _ => streamLines_stepKeeps l count lines
  | free =>
    exact exec_request_keeps rfl fun _ _ => accepted_stepKeeps fun e =>
      (freeSession_keeps.trans (startExpression_keeps e)).trans (launchDue_keeps e)
  | pause => exact exec_request_keeps rfl fun _ _ => accepted_stepKeeps fun e => pauseSession_keeps e _
  | stop => exact exec_request_keeps rfl fun _ _ => accepted_stepKeeps fun e => stopSession_keeps e
  | streamClose =>
    exact exec_request_keeps rfl fun _ _ => require_stepKeeps fun _ => require_stepKeeps fun takes =>
      accept_stepKeeps fun e => (closeStream_keeps (takesStream_active takes)).trans (streamChanged_keeps e)
  | liveStrike l key options velocity offset holdLength =>
    exact exec_request_keeps rfl fun _ _ => liveStrike_stepKeeps l key options velocity offset holdLength
  | liveRelease l key options offset =>
    exact exec_request_keeps rfl fun _ _ => require_stepKeeps fun _ => requireValue_stepKeeps fun k _ =>
      actLive_stepKeeps l _ offset _ fun _ _ _ sound => release_sound sound k _
  | livePedal l pedal options offset =>
    exact exec_request_keeps rfl fun _ _ => require_stepKeeps fun _ => requireValue_stepKeeps fun d _ =>
      actLive_stepKeeps l _ offset _ fun m _ _ sound => pedalNow_sound m sound l d _
  | writeRecord l selector index contents =>
    exact exec_request_keeps rfl fun _ _ => writeRecord_stepKeeps l selector index contents
  | loadProfile l profile boot => exact exec_request_keeps rfl fun _ _ => loadProfile_stepKeeps l profile boot
  | commitProfile l profile boot => exact exec_request_keeps rfl fun _ _ => commitProfile_stepKeeps l profile boot
  | setProtection l profile protection =>
    exact exec_request_keeps rfl fun _ _ => setProtection_stepKeeps l profile protection
  | eraseEnd => exact execEraseEnd_keeps s
  | commitCompletion => exact execCommitCompletion_keeps s
  | powerOn | supplyFail => exact ⟨_, rfl, resetPart_stepKeeps _ s⟩
  | resetLine => exact execResetLine_keeps s
  | resetLineDeassertion => exact execResetLineDeassertion_keeps s
  | linkResetExecute => exact ⟨_, rfl, .ite (fun _ => resetPart_stepKeeps _ s) fun _ => .refl s⟩
  | character l samples => exact execCharacter_keeps l samples s
  | breakDetected l => exact execBreak_keeps l s
  | breakRearm => exact ⟨_, rfl, LinkKeeps.stepKeeps (.same rfl rfl)⟩
  | idleTruncation l => exact execIdleTruncation_keeps l s
  | linkDown l => exact execLinkDown_keeps l s
  | linkUp l => exact execLinkUp_keeps l s
  | discardRecord l => exact execDiscardRecord_keeps l s
  | messageSent l => exact execMessageSent_keeps l s
  | notice l => exact execNotice_keeps l s
  | linkRateChange l => exact execLinkRateChange_keeps l s
  | standbyEntry l => exact execStandbyEntry_keeps l s
  | monitorLevelChange => exact ⟨_, rfl, (setPins_stepKeeps _).trans readMonitor_stepKeeps⟩
  | stabilisationEnd => exact execStabilisationEnd_keeps s
  | serviceLine asserted => exact execServiceLine_keeps asserted s
  | rollPresentChange asserted => exact execRollPresentChange_keeps asserted s
  | leaseEnd => exact execLeaseEnd_keeps s
  | scanImage samples => exact execScanImage_keeps samples s
  | lineTimerExpiry => exact ⟨_, rfl, moment_stepKeeps fun e _ _ => faultSession_keeps e _⟩
  | threadingIntervalEnd | preRollIntervalEnd =>
    exact ⟨_, rfl, moment_stepKeeps fun e t moment =>
      prepareLine_keeps e t (advanceTo_active (preparingEnd_active moment))⟩
  | lineIntervalEnd =>
    exact ⟨_, rfl, moment_stepKeeps fun e t moment => playLine_keeps e t (advanceTo_active (playingEnd_active moment))⟩
  | reverseStep =>
    exact ⟨_, rfl, moment_stepKeeps fun _ t moment =>
      reverseOne_keeps t ((advance_state ..).trans (rewindingAt_state moment))⟩
  | endingLimit => exact ⟨_, rfl, moment_stepKeeps fun e _ _ => endingLimit_keeps e⟩
  | entryLaunch => exact ⟨_, rfl, moment_stepKeeps fun e _ _ => launchNext_keeps e _⟩
  | expressionStep => exact ⟨_, rfl, changePerf_stepKeeps fun e => expressionStep_keeps e⟩
  | fireRequest => exact ⟨_, rfl, moment_stepKeeps fun e _ _ => onInstrument_keeps e fun _ _ sound => askIfDue_sound sound⟩
  | driveEnd k =>
    exact ⟨_, rfl, moment_stepKeeps fun e t moment => onInstrument_keeps e fun _ _ sound =>
      endDrive_sound sound (driveMoment_state (advanceTo_instrument t s.perf ▸ moment))⟩
  | returnExpiry => exact ⟨_, rfl, moment_stepKeeps fun e _ _ => onInstrument_keeps e fun _ _ sound => expireReturn_sound sound _⟩
  | dropMoment => exact ⟨_, rfl, moment_stepKeeps fun e _ _ => onInstrument_keeps e fun _ _ sound => dropFirst_sound sound⟩
  | goingDownTravelEnd d =>
    exact ⟨_, rfl, moment_stepKeeps fun e t moment => onInstrument_keeps e fun _ _ sound =>
      pass_sound (enterDown_sound sound (travelMoment_state (advanceTo_instrument t s.perf ▸ moment)))⟩
  | assistEnd =>
    exact ⟨_, rfl, moment_stepKeeps fun e _ _ => onInstrument_keeps e fun _ _ sound => pass_sound (endAssistOnly_sound sound _)⟩
  | goingUpTravelEnd d =>
    exact ⟨_, rfl, moment_stepKeeps fun e t moment => onInstrument_keeps e fun _ _ sound =>
      pass_sound (enterUpOnly_sound sound (travelMoment_state (advanceTo_instrument t s.perf ▸ moment)))⟩

/-- Every step keeps what every command keeps. -/
theorem step_stepKeeps {s s' : State} (stepped : step s = .next s') : StepKeeps s s' := by
  rcases step_cases stepped with ⟨c, pending, freeCount, executed⟩ | ⟨dt, rfl⟩
  · have taken : StepKeeps s { s with pending := pending, freeCount := freeCount } := .same rfl rfl rfl rfl
    obtain ⟨t, answered, kept⟩ := exec_keeps c { s with pending := pending, freeCount := freeCount }
    obtain rfl := Host.Outcome.next.inj (executed.symm.trans answered)
    exact taken.trans kept
  · exact .ofPerf (advance_keeps dt) rfl rfl rfl

end

end Sys2Proof.Machine
end

section
/-! PROOFS. The invariants: the queue and the buffers (O55), sessions and the claim (O57), the instrument's records (O58), the strikes
accepted (O59), and the state at reset (O60). -/

namespace Sys2Proof.Machine

theorem buffersFit_iff (s : State) :
    buffersFit s ↔ s.perf.session.fits ∧ s.perf.queue.entries.length ≤ queueCapacity ∧ ∀ l, (s.link l).slots.length ≤ 2 := by
  constructor
  · intro ⟨sensor, timer, stream, entries, slotsA, slotsB⟩
    exact ⟨⟨sensor, timer, stream⟩, entries, fun l => by cases l; exacts [slotsA, slotsB]⟩
  · intro ⟨⟨sensor, timer, stream⟩, entries, slots⟩
    exact ⟨sensor, timer, stream, entries, slots .a, slots .b⟩

/-- Settles O55: no step breaks the order of the queue, nor the room of a buffer. -/
theorem queuesStayInOrder : Obligations.QueuesStayInOrder := by
  refine ⟨fun s s' ordered stepped => (step_stepKeeps stepped).perf.ordered ordered, fun s s' fit stepped => ?_⟩
  have kept := step_stepKeeps stepped
  rw [buffersFit_iff] at fit ⊢
  obtain ⟨session, entries, slots⟩ := fit
  exact ⟨kept.perf.fits session, kept.perf.room entries, kept.slots slots⟩

/-- Settles O57: no step leaves a session that is over with something behind, nor a claim with a link that is DOWN. -/
theorem sessionsAndClaimsEnd : Obligations.SessionsAndClaimsEnd :=
  ⟨fun _ _ clear stepped => (step_stepKeeps stepped).perf.cleared clear,
    fun _ _ up stepped => (step_stepKeeps stepped).holder up⟩

/-- Settles O58: the books of the instrument, whatever its surplus, are kept by every step. -/
theorem instrumentStaysCoherent : Obligations.InstrumentStaysCoherent := by
  intro s s' coherent stepped
  have sound := sound_of_coherent coherent
  rw [← add_sub_cancel (BitVec.ofNat 32 s.perf.queue.strikes)
    (s.perf.instrument.accepted - s.perf.instrument.closed - BitVec.ofNat 32 (keyStrikes s.perf.instrument))] at sound
  obtain ⟨b, booked, -⟩ := (step_stepKeeps stepped).perf.books _ sound
  exact booked.coherent

/-- The strikes are conserved where the instrument's surplus is the strikes queued. -/
theorem booked_zero_iff (p : Performance) : Booked 0 p ↔ instrumentCoherent p.instrument ∧ strikesConserved p := by
  rw [Booked, sound_iff, strikesConserved, inFlight, BitVec.ofNat_add, Instrument.closed]
  refine and_congr_right fun _ => Eq.congr_right ?_
  ring

/-- Settles O59: a step leaves no surplus in the books where there was none. -/
theorem strikesStayConserved : Obligations.StrikesStayConserved := by
  intro s s' coherent conserved stepped
  obtain ⟨b, booked, zero⟩ :=
    (step_stepKeeps stepped).perf.books 0 ((booked_zero_iff s.perf).2 ⟨coherent, conserved⟩)
  rw [zero rfl, booked_zero_iff] at booked
  exact booked.2

/-! ### The state at reset -/

/-- The factory records are in range. -/
theorem factoryMap_valid : factoryMap.valid = true := by
  rw [map_valid_iff]
  have key : factoryKey.valid = true := by decide
  exact ⟨fun k => by simp [factoryMap, key], by decide, by decide, by decide, by decide, by decide⟩

theorem reset_mapsInRange : mapsInRange State.reset := by
  have contents : ∀ n : Fin 4, (Store.factory.profiles[n]).contents = factoryMap := by
    intro n
    fin_cases n <;> rfl
  refine ⟨factoryMap_valid, fun n _ => ?_, rfl, rfl, fun c commits => ?_⟩
  · show (Store.factory.profiles[n]).contents.valid = true
    rw [contents, factoryMap_valid]
  · cases commits

/-- Settles O60: at reset everything is empty, and every command is answered. -/
theorem resetMeetsInvariants : Obligations.ResetMeetsInvariants := by
  have booked : Booked 0 State.reset.perf := instrumentReset_sound .normal
  obtain ⟨coherent, conserved⟩ := (booked_zero_iff _).1 booked
  refine ⟨⟨.nil, fun x queued => by cases queued⟩, ?_, reset_mapsInRange, fun _ => ⟨rfl, rfl, rfl, rfl, rfl⟩,
    (fun _ held => nomatch held), coherent, conserved, fun c s => ?_⟩
  · exact ⟨Nat.zero_le _, (fun steps => by cases steps), Nat.zero_le _, Nat.zero_le _, Nat.zero_le _, Nat.zero_le _⟩
  · obtain ⟨t, answered, -⟩ := exec_keeps c s
    exact ⟨t, answered⟩

end Sys2Proof.Machine
end

section
/-! PROOFS. Performance time (O2), the claim check and the table of Section 1.2 (O5), and the requests that are refused for a value (O6)
or set one register (O7). -/

namespace Sys2Proof.Machine

/-! ### Performance time (R2) -/

theorem advance_running {p : Performance} (runs : p.session.state.clockRuns = true) (dt : Nat) :
    advance dt p = { p with now := p.now + dt, session := p.session.tick p.now dt } := if_pos runs

/-- Settles O2: the clock that stands by itself, and the clock that runs by the division of the time that passes. -/
theorem performanceTime : Obligations.PerformanceTime := by
  intro dt p fraction capped
  cases runs : p.session.state.clockRuns with
  | false =>
    refine ⟨p.session.pt, p.session.ptFraction, p.session.ptSince, advance_standing dt runs, fraction,
      fun _ => ⟨rfl, rfl⟩, nofun, nofun, fun _ => rfl⟩
  | true =>
    refine ⟨_, _, _, advance_running runs dt, Nat.mod_lt _ (by omega), nofun, fun _ below => ?below, fun _ beyond => ?beyond,
      fun same => if_neg (by omega)⟩
    case below =>
      have short : p.session.pt + (p.session.ptFraction + dt) / 100 ≤ ptMax := by omega
      simp only [Nat.min_eq_right short]
      refine ⟨by omega, fun grows => ?_⟩
      rw [if_pos grows]
      omega
    case beyond => exact Nat.min_eq_left (by omega)

/-! ### The claim check (R180) -/

section
variable {c : Instr} {l : Link} {s : State}

/-- A request that always needs the claim judges it first. -/
theorem exec_alwaysGated (link : requestLink c = some l) (gated : alwaysGated c = true) :
    ∃ next, ∀ s, exec c s = .next (request l c (require (fun s => s.holds l) .notHolder next) s) := by
  cases c <;> simp only [alwaysGated, Bool.false_eq_true] at gated <;>
    (obtain rfl := Option.some.inj link; exact ⟨_, fun _ => rfl⟩)

/-- A request that needs the claim while a holder exists judges it first. -/
theorem exec_gatedWhileHeld (link : requestLink c = some l) (gated : gatedWhileHeld c = true) :
    ∃ next, ∀ s, exec c s = .next (request l c (require (fun s => !s.otherHolds l) .notHolder next) s) := by
  cases c <;> simp only [gatedWhileHeld, Bool.false_eq_true] at gated <;>
    (obtain rfl := Option.some.inj link; exact ⟨_, fun _ => rfl⟩)

theorem mayWrite_of_inProgress (inProgress : s.perf.session.state.inProgress = true) (other : s.otherHolds l = true) :
    s.mayWrite l = false := by
  unfold State.mayWrite
  rw [other]
  cases state : s.perf.session.state <;> simp [SessionState.inProgress, state] at inProgress ⊢

/-! ### The session states of the session requests (Section 1.2) -/

theorem sessionIn_iff (states : List SessionState) : s.sessionIn states = true ↔ s.perf.session.state ∈ states := by
  simp [State.sessionIn]

theorem sessionIn_eq_false_iff (states : List SessionState) : s.sessionIn states = false ↔ s.perf.session.state ∉ states := by
  simp [State.sessionIn]

/-- A request that judges the claim and then the session is refused where its session check fails. -/
theorem exec_badState {test : State → Bool} {next : State → Reply × State} (taken : Takes s l c) (holds : s.holds l = true)
    (dispatched : exec c s
      = .next (request l c (require (fun s => s.holds l) .notHolder (require test .badState next)) s))
    (fails : test s = false) : exec c s = .next (respond l c .badState [] none s) := by
  refine exec_refused taken dispatched ?_
  rw [require_pass holds, require_fail fails]

/-- The table of Section 1.2: the session requests judge their row after the claim. -/
theorem exec_dash (taken : Takes s l c) (link : requestLink c = some l) (gated : alwaysGated c = true)
    (holds : s.holds l = true) (dash : sessionTakes c s.perf.session = false) :
    exec c s = .next (respond l c .badState [] none s) := by
  have outside : ∀ states : List SessionState, s.perf.session.state ∉ states → s.sessionIn states = false :=
    fun states => (sessionIn_eq_false_iff states).2
  have stands : s.perf.session.steps = false → s.perf.session.takesStream = false := fun stands => by
    rw [Session.takesStream, stands, Bool.and_false]
  cases c <;> simp only [alwaysGated, Bool.false_eq_true] at gated <;> obtain rfl := Option.some.inj link
  case selectSource | free | prepare =>
    refine exec_badState taken holds rfl (outside [.idle] fun idle => ?_)
    rw [List.mem_singleton] at idle
    simp [sessionTakes, idle] at dash
  case play =>
    refine exec_badState taken holds rfl (outside [.cued, .paused] fun inside => ?_)
    rw [List.mem_pair] at inside
    rcases inside with state | state <;> simp [sessionTakes, state] at dash
  case pause =>
    refine exec_badState taken holds rfl (outside [.playing, .starved] fun inside => ?_)
    rw [List.mem_pair] at inside
    rcases inside with state | state <;> simp [sessionTakes, state] at dash
  case stop | setTempo =>
    have ended : s.sessionIn [.idle, .rewinding] = true := by
      rw [sessionIn_iff, List.mem_pair]
      cases state : s.perf.session.state <;> simp [sessionTakes, state] at dash ⊢
    exact exec_badState taken holds rfl (by rw [ended]; rfl)
  case streamLines | streamClose => exact exec_badState taken holds rfl (stands dash)
  all_goals simp [sessionTakes] at dash

end

/-- Settles O5: the claim is judged first, and the state of the session after it. -/
theorem gatesRefuse : Obligations.GatesRefuse := by
  refine ⟨fun c l s link taken => ⟨fun gated notHolder => ?always, fun gated other => ?whileHeld,
    fun selector index contents write inProgress other => ?write⟩,
    fun c l s link taken gated holds dash => exec_dash taken link gated holds dash⟩
  case always =>
    obtain ⟨next, dispatched⟩ := exec_alwaysGated link gated
    exact exec_refused taken (dispatched s) (require_fail notHolder _ _)
  case whileHeld =>
    obtain ⟨next, dispatched⟩ := exec_gatedWhileHeld link gated
    exact exec_refused taken (dispatched s) (require_fail (by rw [other]; rfl) _ _)
  case write =>
    subst write
    exact exec_refused taken rfl (require_fail (mayWrite_of_inProgress inProgress other) _ _)

/-! ### Values out of range (R3, R16 to R18, R79, R178) -/

section
variable {l : Link} {s : State}

theorem tempoOf_of_out {period : BitVec 24} (out : period.toNat < 32000 ∨ 200000 < period.toNat) : tempoOf period = none := by
  simp only [tempoOf, inRange, Bool.and_eq_true, decide_eq_true_eq]
  exact if_neg (by omega)

theorem streamCountOf_of_out {count : Byte} (out : count = 0 ∨ 16 < count.toNat) : streamCountOf count = none := by
  simp only [streamCountOf, inRange, Bool.and_eq_true, decide_eq_true_eq]
  refine if_neg fun inside => ?_
  rcases out with rfl | many
  · exact absurd inside.1 (by decide)
  · omega

theorem trimOf_of_out {trim : Byte} (out : 8 ≤ trim.toNat) : trimOf trim = none := if_neg (by omega)

theorem ne_of_le_toNat {a b : Byte} (above : b.toNat < a.toNat) : a ≠ b := by
  rintro rfl
  exact Nat.lt_irrefl _ above

theorem sourceOf_of_out {code : Byte} (out : 2 ≤ code.toNat) : sourceOf code = none := by
  have zero : code ≠ 0 := ne_of_le_toNat (by simp; omega)
  have one : code ≠ 1 := ne_of_le_toNat (by simp; omega)
  rw [sourceOf, if_neg zero, if_neg one]

theorem admissionOf_of_out {code : Byte} (out : 3 ≤ code.toNat) : admissionOf code = none := by
  have zero : code ≠ 0 := ne_of_le_toNat (by simp; omega)
  have one : code ≠ 1 := ne_of_le_toNat (by simp; omega)
  have two : code ≠ 2 := ne_of_le_toNat (by simp; omega)
  rw [admissionOf, if_neg zero, if_neg one, if_neg two]

theorem noticesOf_of_in {kinds : BitVec 16} (inside : kinds.toNat < 4096) : noticesOf kinds = some (kinds.setWidth 12) :=
  if_pos inside

theorem noticesOf_of_out {kinds : BitVec 16} (out : 4096 ≤ kinds.toNat) : noticesOf kinds = none := if_neg (by omega)

theorem takesStream_of_closed (closed : s.perf.session.source = .sensor ∨ s.perf.session.streamOpen = false) :
    s.perf.session.takesStream = false := by
  rcases closed with sensor | closed
  · simp [Session.takesStream, sensor]
  · simp [Session.takesStream, closed]

/-- The session is IDLE as SELECT-SOURCE, FREE and PREPARE need it. -/
theorem sessionIn_idle (idle : s.perf.session.state = .idle) : s.sessionIn [.idle] = true := by
  rw [sessionIn_iff, idle]
  exact List.mem_singleton_self _

theorem sessionIn_active (notIdle : s.perf.session.state ≠ .idle) (notRewinding : s.perf.session.state ≠ .rewinding) :
    (!s.sessionIn [.idle, .rewinding]) = true := by
  rw [Bool.not_eq_true', sessionIn_eq_false_iff, List.mem_pair]
  exact fun ended => ended.elim notIdle notRewinding

theorem sessionIn_resumes (resumes : s.perf.session.state = .cued ∨ s.perf.session.state = .paused) :
    s.sessionIn [.cued, .paused] = true := by
  rwa [sessionIn_iff, List.mem_pair]

end

/-- Settles O6: the checks before the one that fails pass, and the one that fails gives the response. -/
theorem sessionValueRefusals : Obligations.SessionValueRefusals := by
  intro l s holds
  refine ⟨fun taken idle sensor absent => exec_refused taken rfl ?noRoll,
    fun taken takes critical => exec_refused taken rfl ?critical,
    fun count lines taken closed => exec_badState taken holds rfl (takesStream_of_closed closed),
    fun count lines taken takes out => exec_refused taken rfl ?count,
    fun taken closed => exec_badState taken holds rfl (takesStream_of_closed closed),
    fun code taken idle out => exec_refused taken rfl ?source, fun period taken takes out => exec_refused taken rfl ?period,
    fun trim taken out => exec_refused taken rfl ?trim, fun code taken out => exec_refused taken rfl ?admission⟩
  case noRoll =>
    unfold runPrepare
    rw [require_pass holds, require_pass (sessionIn_idle idle), require_fail (by simp [sensor, absent])]
  case critical =>
    have resumes : s.perf.session.state = .cued ∨ s.perf.session.state = .paused := by
      cases state : s.perf.session.state <;> simp [sessionTakes, state] at takes ⊢
    unfold runPlay
    rw [require_pass holds, require_pass (sessionIn_resumes resumes), require_fail (by simp [critical])]
  case count =>
    unfold runStreamLines
    rw [require_pass holds, require_pass takes, streamCountOf_of_out out, requireValue_none]
  case source =>
    unfold runSelectSource
    rw [require_pass holds, require_pass (sessionIn_idle idle), sourceOf_of_out out, requireValue_none]
  case period =>
    have active : s.perf.session.state ≠ .idle ∧ s.perf.session.state ≠ .rewinding := by
      cases state : s.perf.session.state <;> simp [sessionTakes, state] at takes ⊢
    unfold runSetTempo
    rw [require_pass holds, require_pass (sessionIn_active active.1 active.2), tempoOf_of_out out, requireValue_none]
  case trim =>
    unfold runSetTrim
    rw [require_pass holds, trimOf_of_out out, requireValue_none]
  case admission =>
    unfold runSetAdmission
    rw [require_pass holds, admissionOf_of_out out, requireValue_none]

/-! ### The requests that set one register (R3, R79, R178, R197) -/

theorem sourceOf_of_in {code : Byte} {source : Source} (named : (code = 0 ∧ source = .sensor) ∨ (code = 1 ∧ source = .stream)) :
    sourceOf code = some source := by
  rcases named with ⟨rfl, rfl⟩ | ⟨rfl, rfl⟩ <;> rfl

theorem admissionOf_of_in {code : Byte} {admission : Admission}
    (named : (code = 0 ∧ admission = .none) ∨ (code = 1 ∧ admission = .holder) ∨ (code = 2 ∧ admission = .both)) :
    admissionOf code = some admission := by
  rcases named with ⟨rfl, rfl⟩ | ⟨rfl, rfl⟩ | ⟨rfl, rfl⟩ <;> rfl

/-- Settles O7: the one register that each request writes. -/
theorem registerRequests : Obligations.RegisterRequests := by
  intro l s
  refine ⟨fun code source taken holds idle named => exec_answered taken rfl ?source,
    fun trim taken holds inside => exec_answered taken rfl ?trim,
    fun code admission taken holds named => exec_answered taken rfl ?admission,
    fun kinds taken => ⟨fun inside => exec_answered taken rfl ?mask, fun out => exec_refused taken rfl ?noMask⟩⟩
  case source =>
    have set : settle s.env { s.perf with session := { s.perf.session with source := source } }
        = { s.perf with session := { s.perf.session with source := source } } := settle_of_idle idle
    unfold runSelectSource
    rw [require_pass holds, require_pass (sessionIn_idle idle), sourceOf_of_in named, requireValue_some]
    exact congrArg (fun p => (okWith [], { s with perf := p })) set
  case trim =>
    unfold runSetTrim
    rw [require_pass holds, trimOf, if_pos inside, requireValue_some]
    rfl
  case admission =>
    unfold runSetAdmission
    rw [require_pass holds, admissionOf_of_in named, requireValue_some]
    rfl
  case mask =>
    unfold runSetNoticeMask
    rw [noticesOf_of_in inside, requireValue_some]
    rfl
  case noMask =>
    unfold runSetNoticeMask
    rw [noticesOf_of_out out, requireValue_none]

end Sys2Proof.Machine
end

section
/-! PROOFS. The lapse of the claim (O11), and the session requests that start and resume a session: FREE (O12), PREPARE (O13) and PLAY
(O14). -/

namespace Sys2Proof.Machine

/-! ### What follows a change (R14, R22) -/

section
variable {e : Env} {p : Performance}

theorem forwardStep_of_wants {now : Nat} {x : Session} (wants : x.wantsStep = true) :
    forwardStep now x = { x with
      direction := .forward
      stepPulses := x.stepPulses + 1
      stepTimer := some (now + 20000)
      rewindCount := x.rewindCount + 1 } := if_pos wants

/-- Nothing follows a change that completes no roll and calls for no step. -/
theorem settle_of_calm (left : notCompleting p) (noStep : p.session.wantsStep = false) : settle e p = p := by
  rw [settle_of_left left, onSession, forwardStep_of_none noStep]

theorem notCompleting_of_ne (notEnding : p.session.state ≠ .ending) : notCompleting p := fun ending => absurd ending notEnding

theorem forwardStep_resumeTarget (now : Nat) (x : Session) : (forwardStep now x).resumeTarget = x.resumeTarget := by
  unfold forwardStep
  split <;> rfl

end

/-- A request that is accepted is answered OK, with its change and what follows it. -/
theorem exec_accepted {c : Instr} {l : Link} {s : State} {run : State → Reply × State} {f : Env → Performance → Performance}
    {p : Performance} (taken : Takes s l c) (dispatched : exec c s = .next (request l c run s)) (ran : run s = accept f s)
    (changes : settle s.env (f s.env s.perf) = p) : exec c s = .next (respond l c .ok [] none { s with perf := p }) := by
  rw [← changes]
  exact exec_answered taken dispatched ran

/-! ### The lapse of the claim at its lease end (R174, R25) -/

theorem exec_leaseEnd {h : HeldClaim} {s : State} (taken : s.power.state ≠ .held) (held : s.claim.held = some h) :
    exec .leaseEnd s = .next { s with
      perf := lapsed s.env (advanceTo h.leaseEnd s.perf), claim := { s.claim with held := none } } := by
  show execLeaseEnd s = _
  unfold execLeaseEnd
  rw [held]
  dsimp only
  rw [if_neg taken, lapseClaim_eq]
  rfl

section
variable {e : Env} {p : Performance}

theorem lapseSession_now : (lapseSession e p).now = p.now := by
  unfold lapseSession
  split
  · simp [pauseSession]
  · split <;> simp [stopSession]

theorem lapseSession_detector : (lapseSession e p).detector = p.detector := by
  unfold lapseSession
  split
  · simp [pauseSession]
  · split <;> simp [stopSession]

theorem lapseSession_expression : (lapseSession e p).expression = p.expression := by
  unfold lapseSession
  split
  · simp [pauseSession]
  · split <;> simp [stopSession]

theorem lapsed_now : (lapsed e p).now = p.now := by
  rw [lapsed_eq, onSession, lapseSession_now]
  rfl

theorem lapsed_keeps : (lapsed e p).detector = p.detector ∧ (lapsed e p).expression = p.expression := by
  rw [lapsed_eq]
  exact ⟨lapseSession_detector, lapseSession_expression⟩

theorem lapsed_inPlay_target (inPlay : p.session.state.inPlay = true) :
    (lapsed e p).session.resumeTarget = some (if p.session.state = .ending then .ending else .playing)
      ∧ (lapsed e p).queue = p.queue := by
  rw [lapsed_eq, lapseSession_of_inPlay (p := withLapseNoticed p) inPlay]
  refine ⟨(forwardStep_resumeTarget _ _).trans ?_, ?_⟩ <;> simp [pauseSession, withLapseNoticed]

theorem lapsed_of_other (notInPlay : p.session.state.inPlay = false) (notFree : p.session.state ≠ .free) :
    (lapsed e p).session = forwardStep p.now p.session ∧ (lapsed e p).queue = p.queue := by
  rw [lapsed_eq, lapseSession_of_other (p := withLapseNoticed p) notInPlay notFree]
  exact ⟨rfl, rfl⟩

theorem advanceTo_queue (t : Nat) : (advanceTo t p).queue = p.queue := advance_queue ..

theorem advanceTo_state (t : Nat) : (advanceTo t p).session.state = p.session.state := advance_state ..

/-- In a state that is neither in play nor FREE the clock stands. -/
theorem clockStands (notInPlay : p.session.state.inPlay = false) (notFree : p.session.state ≠ .free) :
    p.session.state.clockRuns = false := by
  cases state : p.session.state <;> simp [state, SessionState.inPlay, SessionState.clockRuns] at notInPlay notFree ⊢

end

/-- Settles O11: real time goes to the lease end, and the claim lapses as it does when its link goes DOWN. -/
theorem leaseEndLapses : Obligations.LeaseEndLapses := by
  intro h s taken held ahead
  obtain ⟨noticedA, noticedB⟩ := lapsed_pendingBoth s.env (advanceTo h.leaseEnd s.perf)
  obtain ⟨detector, expression⟩ := lapsed_keeps (e := s.env) (p := advanceTo h.leaseEnd s.perf)
  have reached : (advanceTo h.leaseEnd s.perf).now = h.leaseEnd := advanceTo_now ahead
  have state := advanceTo_state (p := s.perf) h.leaseEnd
  refine ⟨_, exec_leaseEnd taken held, lapsed_now.trans reached, noticedA, noticedB, fun inPlay => ?inPlay, fun free => ?free,
    fun notInPlay notFree => ?other, detector.trans (advance_detector ..), expression.trans (advance_expression ..)⟩
  case inPlay =>
    rw [← state] at inPlay ⊢
    obtain ⟨paused, cause⟩ := lapsed_of_inPlay inPlay s.env
    obtain ⟨target, queue⟩ := lapsed_inPlay_target (e := s.env) inPlay
    exact ⟨paused, cause, queue.trans (advanceTo_queue _), target⟩
  case free => exact lapsed_of_free (state.trans free) s.env
  case other =>
    have stands := clockStands notInPlay notFree
    rw [← state] at notInPlay notFree
    obtain ⟨session, queue⟩ := lapsed_of_other (e := s.env) notInPlay notFree
    refine ⟨?_, queue.trans (advanceTo_queue _)⟩
    rw [session, reached, advanceTo, advance_standing _ stands]

/-! ### FREE (R4, R72) -/

/-- Settles O12: nothing is due, completes, or calls for a step in a session that enters FREE. -/
theorem freeStarts : Obligations.FreeStarts := by
  intro l s taken holds idle empty
  refine exec_accepted taken rfl (runFree_accepts holds idle) ?_
  have noneDue : noneDue (startExpression s.env (onSession freeSession s.perf)) := fun x queued =>
    absurd (empty ▸ queued : x ∈ []) List.not_mem_nil
  rw [launchDue_of_none noneDue, settle_of_calm]
  · rfl
  · exact notCompleting_of_ne nofun
  · simp [Session.wantsStep, Session.steps, freeSession]

/-! ### PREPARE (R5, R6, R14) -/

theorem runPrepare_accepts {l : Link} {s : State} (holds : s.holds l = true) (idle : s.perf.session.state = .idle)
    (roll : s.perf.session.source = .stream ∨ s.pins.rollPresent = true) :
    runPrepare l s = accept (fun e p =>
      startExpression e (onSession (prepareSession p.now) { p with detector := p.detector.prepare })) s := by
  unfold runPrepare
  rw [require_pass holds, require_pass (sessionIn_idle idle), require_pass (by simpa using roll)]

/-- Settles O13: the first step of a SENSOR session is called for, and a STREAM session calls for none. -/
theorem prepareStarts : Obligations.PrepareStarts := by
  intro l s taken holds idle empty noStep rest started prepared
  refine ⟨fun sensor roll => exec_accepted taken rfl (runPrepare_accepts holds idle (.inr roll)) ?sensor,
    fun stream => exec_accepted taken rfl (runPrepare_accepts holds idle (.inl stream)) ?stream⟩
  case sensor =>
    have wants : (prepareSession s.perf.now s.perf.session).wantsStep = true := by
      simp [Session.wantsStep, Session.steps, prepareSession, sensor, empty, noStep]
    have stepped : forwardStep s.perf.now (prepareSession s.perf.now s.perf.session) = { started with
        streamOpen := false
        intervalEnd := some (s.perf.now + 2500)
        direction := .forward
        stepPulses := s.perf.session.stepPulses + 1
        stepTimer := some (s.perf.now + 20000)
        rewindCount := 1 } := by
      rw [forwardStep_of_wants wants]
      simp only [prepareSession, sensor, started]
      rfl
    rw [settle_of_left]
    · exact congrArg (fun x => (prepared x).perf) stepped
    · exact notCompleting_of_ne nofun
  case stream =>
    have begun : prepareSession s.perf.now s.perf.session = { started with streamOpen := true, intervalEnd := none } := by
      simp only [prepareSession, stream, started]
      rfl
    rw [settle_of_calm]
    · exact congrArg (fun x => (prepared x).perf) begun
    · exact notCompleting_of_ne nofun
    · simp [Session.wantsStep, prepareSession, stream]

/-! ### PLAY (R9, R10, R19) -/

/-- Settles O14: the resume target decides between a new frame of PLAYING and the rest of ENDING. -/
theorem playResumes : Obligations.PlayResumes := by
  intro l s taken holds state supplied noneDue
  have launched : ∀ f : Session → Session, (f s.perf.session).pt = s.perf.session.pt →
      launchDue s.env (onSession f s.perf) = onSession f s.perf :=
    fun f pt => launchDue_of_none fun y queued => Nat.lt_of_le_of_lt (Nat.le_of_eq pt) (noneDue y queued)
  refine ⟨fun target => exec_accepted taken rfl (runPlay_accepts holds state supplied) ?playing,
    fun target left => exec_accepted taken rfl (runPlay_accepts holds state supplied) ?ending⟩
  case playing =>
    have resumed : resumeSession s.perf.now s.perf.session = { s.perf.session with
        state := .playing
        resumeTarget := none
        pauseCause := .none
        frameIndex := 0
        newFrame := false
        intervalEnd := some (s.perf.now + (s.perf.session.tempo / 32
          + (if 0 < s.perf.session.tempo % 32 then 1 else 0))) } := by
      rw [resumeSession, if_neg target]
      rfl
    rw [launched _ (by rw [resumed]), settle_of_left]
    · exact congrArg (fun x => { s.perf with session := forwardStep s.perf.now x }) resumed
    · exact notCompleting_of_ne ((congrArg Session.state resumed).trans_ne nofun)
  case ending =>
    have resumed : resumeSession s.perf.now s.perf.session = { s.perf.session with
        state := .ending, resumeTarget := none, pauseCause := .none } := by
      rw [resumeSession, if_pos target]
    rw [launched _ (by rw [resumed]), settle_of_calm]
    · exact congrArg (fun x => { s.perf with session := x }) resumed
    · exact fun _ => left
    · show (resumeSession s.perf.now s.perf.session).wantsStep = false
      rw [resumed]
      simp [Session.wantsStep, Session.steps]

end Sys2Proof.Machine
end

section
/-! PROOFS. STOP (O17) and SET-TEMPO (O18). -/

namespace Sys2Proof.Machine

/-! ### STOP (R20, R23, R67) -/

section
variable {e : Env} {now : Nat} {x : Session}

/-- Where STOP goes to IDLE. -/
theorem afterStop_idle
    (goesIdle : x.state = .free ∨ x.source = .stream ∨ e.rollPresent = false ∨ x.rewindCount = 0) :
    afterStop e now x = { x with state := .idle } := by
  unfold afterStop startRewind
  rcases goesIdle with free | stream | absent | none
  · rw [if_pos (.inl free)]
  · rw [if_pos (.inr (.inl stream))]
  · rw [if_pos (.inr (.inr (by simp [absent])))]
  · rw [if_pos none, ite_self]

/-- Where STOP goes to REWINDING (log 15). -/
theorem afterStop_rewinding
    (rewinds : ¬ (x.state = .free ∨ x.source = .stream ∨ e.rollPresent = false ∨ x.rewindCount = 0)) :
    afterStop e now x = { x with state := .rewinding, direction := .reverse, reverseStepAt := some (now + 125) } := by
  simp only [not_or, Bool.not_eq_false] at rewinds
  obtain ⟨notFree, notStream, present, some⟩ := rewinds
  unfold afterStop startRewind
  rw [if_neg (by simp [notFree, notStream, present]), if_neg some]

/-- What STOP keeps of the session, wherever it goes. -/
theorem afterStop_keeps :
    ∃ state direction reverseStepAt, afterStop e now x
      = { x with state := state, direction := direction, reverseStepAt := reverseStepAt } := by
  by_cases goesIdle : x.state = .free ∨ x.source = .stream ∨ e.rollPresent = false ∨ x.rewindCount = 0
  · exact ⟨_, _, _, afterStop_idle goesIdle⟩
  · exact ⟨_, _, _, afterStop_rewinding goesIdle⟩

end

section
variable {e : Env} {p : Performance}

/-- The discard of the whole queue leaves it empty, and gives the strikes queued (R67). -/
theorem discard_all (q : Queue) : q.discard (fun _ => true) = (q.strikes, { q with entries := [] }) := by
  simp [Queue.discard, Queue.strikes]

theorem stopSession_eq : stopSession e p = { p with
    session := afterStop e p.now (clearSession p.session)
    queue := { p.queue with entries := [] }
    instrument := pauseInstrument (p.moment e) (countDiscarded p.queue.strikes p.instrument) } := by
  simp only [stopSession, discardEntries, discard_all, pauseEffects, onInstrument, onSession, Performance.moment]

/-- A session that is over calls for nothing more. -/
theorem settle_of_ended (ended : p.session.state = .idle ∨ p.session.state = .rewinding) : settle e p = p := by
  refine settle_of_calm (notCompleting_of_ne ?_) ?_
  · rcases ended with state | state <;> rw [state] <;> decide
  · rcases ended with state | state <;> simp [Session.wantsStep, Session.steps, state]

end

theorem runStop_accepts {l : Link} {s : State} (holds : s.holds l = true) (notIdle : s.perf.session.state ≠ .idle)
    (notRewinding : s.perf.session.state ≠ .rewinding) : runStop l s = accept stopSession s := by
  unfold runStop
  rw [require_pass holds, require_pass (sessionIn_active notIdle notRewinding)]

/-- Settles O17: the stop, by where it takes the session. -/
theorem stopStops : Obligations.StopStops := by
  intro l s taken holds notIdle notRewinding toIdle
  obtain ⟨ended, -⟩ := afterStop_clear s.env s.perf.now s.perf.session
  refine ⟨afterStop s.env s.perf.now (clearSession s.perf.session),
    exec_accepted taken rfl (runStop_accepts holds notIdle notRewinding) ?stopped, fun goesIdle => ?idle,
    fun rewinds => ?rewinding, ?kept⟩
  case stopped => rw [stopSession_eq, settle_of_ended ended, State.moment]
  case idle => exact congrArg Session.state (afterStop_idle goesIdle)
  case rewinding => simp [afterStop_rewinding (e := s.env) (x := clearSession s.perf.session) rewinds]
  case kept =>
    obtain ⟨state, direction, reverseStepAt, kept⟩ := afterStop_keeps (e := s.env) (now := s.perf.now)
      (x := clearSession s.perf.session)
    rw [kept]
    exact ⟨rfl, rfl, rfl, rfl, rfl, rfl, rfl, rfl, rfl, rfl, rfl, rfl, rfl, rfl, rfl⟩

/-! ### SET-TEMPO (R18, R64, R65) -/

/-- Settles O18: where nothing is due after the rescale and nothing completes, there is at most a forward step. -/
theorem tempoChanges : Obligations.TempoChanges := by
  intro l period s taken holds notIdle notRewinding low high queue nothingDue left
  refine exec_accepted taken rfl (runSetTempo_accepts holds notIdle notRewinding low high) ?_
  have launched : changeTempo period.toNat s.env s.perf = onSession
      (fun x => { x with tempo := period.toNat, newFrame := true }) { s.perf with queue := queue } := by
    rcases nothingDue with stands | noneDue
    · exact launchDue_standing stands
    · exact launchDue_of_none noneDue
  rw [launched]
  exact settle_of_left left

end Sys2Proof.Machine
end

section
/-! PROOFS. PAUSE and the pause effects (O16). -/

namespace Sys2Proof.Machine

/-! ### The roll leaves every key and every pedal (R110, R133) -/

section
variable {i : Instrument} {m : Moment} {k : Key} {d : PedalName}

theorem withoutRoll_contributes (st : Option Strike) : rollContributes (withoutRoll st) = false := by
  rw [withoutRoll_eq]
  split
  · rfl
  · split <;> rfl

theorem leftByRoll_hasRoll (r : KeyRecord) : r.leftByRoll.hasRoll = false := by
  simp [KeyRecord.hasRoll, KeyRecord.leftByRoll, withoutRoll_contributes, Origins.erase]

/-- A strike that only waits for its time is no more of the roll than it was. -/
theorem rollContributes_some (st : Strike) (fire : Nat) :
    rollContributes (some { st with fire := fire }) = rollContributes (some st) := rfl

/-- The pause effects at a key put a record there that the roll has left, and change besides the strikes discarded, the wait list and
the units in use. -/
theorem pauseKeyOnly_sets (m : Moment) (k : Key) (i : Instrument) :
    ∃ (r : KeyRecord) (discarded : Counter) (waitList : List WaitEntry) (units : Nat), r.hasRoll = false
      ∧ pauseKeyOnly m k i = { i with
          keys := i.keys.set k r, discarded := discarded, waitList := waitList, unitsInUse := units } := by
  obtain ⟨r, was⟩ : ∃ r, i.keys[k].leftByRoll = r := ⟨_, rfl⟩
  have gone : r.hasRoll = false := was ▸ leftByRoll_hasRoll _
  have parts : r.holders.roll = false ∧ rollContributes r.armed = false ∧ rollContributes r.pending = false := by
    simpa [KeyRecord.hasRoll, and_assoc] using gone
  obtain ⟨holders, armed, pending⟩ := parts
  rw [pauseKeyOnly_eq, was]
  split
  · obtain ⟨rests, arms⟩ := loseArmedOnly_set m k { i with discarded := i.discarded + i.keys[k].lostToPause } r
    cases waits : r.pending with
    | none =>
      refine ⟨_, _, _, _, ?_, rests waits⟩
      simp [KeyRecord.hasRoll, waits, rollContributes]
    | some st =>
      rw [waits] at pending
      have gone : KeyRecord.hasRoll { r with armed := some { st with fire := max st.fire m.pt }, pending := none } = false := by
        simp only [KeyRecord.hasRoll, holders, rollContributes_some, pending]
        rfl
      obtain ⟨early, late⟩ := arms st waits
      rcases Nat.lt_or_ge m.pt st.fire with ahead | passed
      · exact ⟨_, _, _, _, by exact gone, early ahead⟩
      · exact ⟨_, _, _, _, by exact gone, late passed⟩
  · split
    · obtain ⟨held, shed, other⟩ := emptiedOnly_set m k { i with discarded := i.discarded + i.keys[k].lostToPause } r
      by_cases hold : r.state = .hold
      · exact ⟨_, _, _, _, by exact gone, held hold⟩
      · by_cases isShed : r.state = .shed
        · exact ⟨_, _, _, _, by exact gone, shed isShed⟩
        · exact ⟨r, _, _, _, gone, other hold isShed⟩
    · exact ⟨r, _, _, _, gone, rfl⟩

/-- A record of a key is free of the roll. -/
def RollGone (k : Key) (i : Instrument) : Prop := (i.keys[k]).hasRoll = false

theorem RollGone.set (gone : RollGone k i) {j : Key} {r : KeyRecord} {i' : Instrument} (keys : i'.keys = i.keys.set j r)
    (free : j = k → r.hasRoll = false) : RollGone k i' := by
  unfold RollGone
  rw [keys]
  by_cases same : j = k
  · subst same
    simpa using free rfl
  · rw [getElem_set_ne (Ne.symm same)]
    exact gone

theorem pauseKeysOnly_rollGone (m : Moment) (i : Instrument) (k : Key) : RollGone k (pauseKeysOnly m i) := by
  refine forKeys_each (Q := RollGone) (fun k i => ?_) (fun k j i gone => ?_) i k
  · obtain ⟨r, _, _, _, free, paused⟩ := pauseKeyOnly_sets m k i
    rw [RollGone, paused]
    simpa using free
  · obtain ⟨r, _, _, _, free, paused⟩ := pauseKeyOnly_sets m j i
    exact gone.set (congrArg Instrument.keys paused) fun _ => free

theorem cutShed_rollGone (gone : RollGone k i) : RollGone k (cutShed i) := by
  refine forKeys_induct (P := RollGone k) (fun j i gone => ?_) gone
  dsimp only
  split
  · refine gone.set (j := j) rfl fun same => ?_
    subst same
    simp only [RollGone, KeyRecord.hasRoll, Bool.or_eq_false_iff] at gone ⊢
    exact ⟨⟨rfl, gone.1.2⟩, gone.2⟩
  · exact gone

theorem goUpOnly_rollGone (withAssist : Bool) (gone : RollGone k i) : RollGone k (goUpOnly m d withAssist i) := by
  rw [goUpOnly_eq]
  cases d with
  | damper => exact cutShed_rollGone gone
  | shift => exact gone

theorem setPedal_rollGone (r : PedalRecord) (gone : RollGone k i) : RollGone k (setPedal d r i) := by
  cases d <;> exact gone

theorem leavePedalOnly_rollGone (o : Origin) (gone : RollGone k i) : RollGone k (leavePedalOnly m d o i) := by
  have left := fun r => setPedal_rollGone (d := d) r gone
  unfold leavePedalOnly
  dsimp only
  split
  · split
    · unfold upRequestOnly
      dsimp only
      split
      · exact setPedal_rollGone (d := d) _ (left _)
      · split
        · exact goUpOnly_rollGone true (left _)
        · exact goUpOnly_rollGone true (left _)
        · exact left _
        · exact left _
    · exact left _
  · exact gone

theorem pass_rollGone (gone : RollGone k i) : RollGone k (pass m i) := by
  refine pass_induct (P := RollGone k) (fun i j gone _ _ => ?shed) (fun i e rest gone _ _ => ?granted) gone
  case shed => exact gone.set (j := j) rfl fun same => same ▸ gone
  case granted =>
    unfold grant
    split
    · next j _ =>
      unfold grantKey
      dsimp only
      split
      · exact gone
      · next st _ =>
        have fired : RollGone k (setKey j { i.keys[j] with
            state := .drive
            armed := none
            requestMoment := none
            driveEnd := some (m.now + m.map.keys[j].driveLength * 100)
            channel := i.keys[j].channel.switch m.now (.forward st.duty) } i) := by
          refine gone.set (j := j) rfl fun same => ?_
          subst same
          simp only [RollGone, KeyRecord.hasRoll, Bool.or_eq_false_iff] at gone ⊢
          exact ⟨⟨gone.1.1, rfl⟩, gone.2⟩
        split <;> exact fired
    · rw [RollGone, grantPedal_keys]
      exact gone

/-! ### The roll leaves the pedals, and the counters that stay (R110, R133) -/

/-- The counters that the pause effects keep, and the monitor level. -/
def Instrument.keptByPause (i : Instrument) : Counter × Counter × Counter × Counter × Counter × MonitorLevel :=
  (i.accepted, i.merged, i.dropped, i.pedalDropped, i.earlyRelease, i.monitor)

theorem setPedal_keptByPause (d : PedalName) (r : PedalRecord) (i : Instrument) :
    (setPedal d r i).keptByPause = i.keptByPause := by
  cases d <;> rfl

theorem pauseKeysOnly_keeps (m : Moment) (i : Instrument) :
    (pauseKeysOnly m i).keptByPause = i.keptByPause ∧ ∀ x, (pauseKeysOnly m i).pedal x = i.pedal x := by
  refine forKeys_induct (P := fun j => j.keptByPause = i.keptByPause ∧ ∀ x, j.pedal x = i.pedal x) (fun k j held => ?_)
    ⟨rfl, fun _ => rfl⟩
  obtain ⟨r, _, _, _, -, paused⟩ := pauseKeyOnly_sets m k j
  rw [paused]
  exact held

theorem cutShed_keeps (i : Instrument) : (cutShed i).keptByPause = i.keptByPause ∧ ∀ x, (cutShed i).pedal x = i.pedal x := by
  refine forKeys_induct (P := fun j => j.keptByPause = i.keptByPause ∧ ∀ x, j.pedal x = i.pedal x) (fun k j held => ?_)
    ⟨rfl, fun _ => rfl⟩
  dsimp only
  split <;> exact held

theorem goUpOnly_keeps (m : Moment) (d : PedalName) (withAssist : Bool) (i : Instrument) :
    (goUpOnly m d withAssist i).keptByPause = i.keptByPause
      ∧ ∀ x, ((goUpOnly m d withAssist i).pedal x).holders = (i.pedal x).holders := by
  have gone : (pedalGoneUp m d withAssist i).keptByPause = i.keptByPause
      ∧ ∀ x, ((pedalGoneUp m d withAssist i).pedal x).holders = (i.pedal x).holders := by
    refine ⟨setPedal_keptByPause .., fun x => ?_⟩
    unfold pedalGoneUp
    by_cases same : x = d
    · subst same
      rw [setPedal_pedal]
      rfl
    · rw [setPedal_pedal_ne same]
      cases x <;> rfl
  rw [goUpOnly_eq]
  cases d with
  | damper =>
    obtain ⟨kept, pedals⟩ := cutShed_keeps { pedalGoneUp m .damper withAssist i with damperDown := false }
    exact ⟨kept.trans gone.1, fun x => (congrArg PedalRecord.holders (pedals x)).trans (gone.2 x)⟩
  | shift => exact gone

/-- A source that leaves a pedal leaves its holder set and no other. -/
theorem leavePedalOnly_keeps (m : Moment) (d : PedalName) (o : Origin) (i : Instrument) :
    (leavePedalOnly m d o i).keptByPause = i.keptByPause
      ∧ ((leavePedalOnly m d o i).pedal d).holders = (i.pedal d).holders.erase o
      ∧ ∀ x, x ≠ d → ((leavePedalOnly m d o i).pedal x).holders = (i.pedal x).holders := by
  have left : ∀ r : PedalRecord, r.holders = (i.pedal d).holders.erase o →
      (setPedal d r i).keptByPause = i.keptByPause ∧ ((setPedal d r i).pedal d).holders = (i.pedal d).holders.erase o
        ∧ ∀ x, x ≠ d → ((setPedal d r i).pedal x).holders = (i.pedal x).holders := fun r holders =>
    ⟨setPedal_keptByPause .., by rw [setPedal_pedal, holders], fun x other => by rw [setPedal_pedal_ne other]⟩
  have up : ∀ r : PedalRecord, r.holders = (i.pedal d).holders.erase o →
      (goUpOnly m d true (setPedal d r i)).keptByPause = i.keptByPause
        ∧ ((goUpOnly m d true (setPedal d r i)).pedal d).holders = (i.pedal d).holders.erase o
        ∧ ∀ x, x ≠ d → ((goUpOnly m d true (setPedal d r i)).pedal x).holders = (i.pedal x).holders := fun r holders => by
    obtain ⟨kept, goes⟩ := goUpOnly_keeps m d true (setPedal d r i)
    obtain ⟨kept', here, there⟩ := left r holders
    exact ⟨kept.trans kept', (goes d).trans here, fun x other => (goes x).trans (there x other)⟩
  unfold leavePedalOnly
  dsimp only
  split
  · split
    · unfold upRequestOnly
      dsimp only
      rw [setPedal_pedal, setPedal_setPedal]
      split
      · exact left _ rfl
      · split
        · exact up _ rfl
        · exact up _ rfl
        · exact left _ rfl
        · exact left _ rfl
    · exact left _ rfl
  · next absent =>
    refine ⟨rfl, ?_, fun _ _ => rfl⟩
    cases o <;> simp only [Origins.has, Bool.not_eq_true] at absent <;> simp [Origins.erase, ← absent]

theorem grant_keeps (m : Moment) (e : WaitEntry) (i : Instrument) :
    (grant m e i).keptByPause = i.keptByPause ∧ ∀ x, ((grant m e i).pedal x).holders = (i.pedal x).holders := by
  unfold grant
  split
  · unfold grantKey
    dsimp only
    split
    · exact ⟨rfl, fun _ => rfl⟩
    · split <;> exact ⟨rfl, fun x => by cases x <;> rfl⟩
  · next d _ =>
    unfold grantPedal
    dsimp only
    split
    · refine ⟨by cases d <;> rfl, fun x => ?_⟩
      cases d <;> cases x <;> rfl
    · refine ⟨by cases d <;> rfl, fun x => ?_⟩
      cases d <;> cases x <;> rfl

theorem pass_keptByPause (m : Moment) (i : Instrument) : (pass m i).keptByPause = i.keptByPause :=
  pass_keeps Instrument.keptByPause (fun _ _ => rfl) (fun e i => (grant_keeps m e i).1) (fun _ _ => rfl) i

theorem pass_holders (m : Moment) (x : PedalName) (i : Instrument) :
    ((pass m i).pedal x).holders = (i.pedal x).holders :=
  pass_keeps (fun i => (i.pedal x).holders) (fun _ _ => by cases x <;> rfl) (fun e i => (grant_keeps m e i).2 x)
    (fun _ _ => by cases x <;> rfl) i

theorem pauseInstrument_rollGone (m : Moment) (i : Instrument) (k : Key) : RollGone k (pauseInstrument m i) :=
  pass_rollGone (leavePedalOnly_rollGone _ (leavePedalOnly_rollGone _ (pauseKeysOnly_rollGone m i k)))

theorem pauseInstrument_keeps (m : Moment) (i : Instrument) :
    (pauseInstrument m i).keptByPause = i.keptByPause ∧ ∀ d, ((pauseInstrument m i).pedal d).holders.roll = false := by
  obtain ⟨paused, -⟩ := pauseKeysOnly_keeps m i
  obtain ⟨damperKept, damperHere, -⟩ := leavePedalOnly_keeps m .damper .roll (pauseKeysOnly m i)
  obtain ⟨shiftKept, shiftHere, shiftThere⟩ :=
    leavePedalOnly_keeps m .shift .roll (leavePedalOnly m .damper .roll (pauseKeysOnly m i))
  refine ⟨(pass_keptByPause ..).trans (shiftKept.trans (damperKept.trans paused)), fun d => ?_⟩
  unfold pauseInstrument
  rw [pass_holders]
  cases d with
  | damper => rw [shiftThere .damper nofun, damperHere]; rfl
  | shift => rw [shiftHere]; rfl

/-! ### A source leaves a pedal (R127, R129, R133) -/

theorem PedalRecord.position_holders (r : PedalRecord) (holders : Origins) (now : Nat) :
    PedalRecord.position { r with holders := holders } now = r.position now := rfl

/-- The charge that a pedal keeps as it goes up is that of its assist. -/
theorem goneUp_charge (m : Moment) (d : PedalName) (r : PedalRecord) :
    (goneUp m d true r).charge
      = if 0 < (m.map.pedal d).assistLength ∧ 0 < r.position m.now * (m.map.pedal d).upTravel / 1000 then 1 else 0 := by
  unfold goneUp
  dsimp only
  by_cases travels : r.position m.now * (m.map.pedal d).upTravel / 1000 = 0
  · simp [PedalRecord.charge, travels]
  · have moves : 0 < r.position m.now * (m.map.pedal d).upTravel / 1000 := Nat.pos_of_ne_zero travels
    rw [if_neg travels]
    by_cases assists : 0 < (m.map.pedal d).assistLength
    · simp [PedalRecord.charge, assists, moves]
    · simp [PedalRecord.charge, assists]

theorem goneUp_eq (m : Moment) (d : PedalName) (r : PedalRecord) :
    goneUp m d true r
      = let place := r.position m.now
        let travel := place * (m.map.pedal d).upTravel / 1000
        let assist := 0 < (m.map.pedal d).assistLength ∧ 0 < travel
        { r with
          state := if travel = 0 then .up else .goingUp
          travel := if travel = 0 then none else some ⟨m.now, place, m.now + travel * 100⟩
          assistEnd := if assist then some (m.now + (m.map.pedal d).assistLength * 100) else none
          bridge := r.bridge.switch m.now (if assist then .reverse (m.map.pedal d).assistDuty else .off) } := by
  unfold goneUp
  simp only [Bool.true_and, Bool.and_eq_true, decide_eq_true_eq, if_true, apply_ite (r.bridge.switch m.now)]

/-- The last source leaves a pedal that is DOWN or GOING-DOWN: it goes up with its assist, returning the units that it held, and a damper
cuts the keys in SHED (R108, R127). -/
theorem leavePedalOnly_up {m : Moment} {d : PedalName} {o : Origin} {i : Instrument} (held : Nat)
    (present : (i.pedal d).holders.has o = true) (empty : ((i.pedal d).holders.erase o).isEmpty = true)
    (idle : (i.pedal d).requestMoment = none)
    (state : ((i.pedal d).state = .goingDown ∧ held = 6) ∨ ((i.pedal d).state = .down ∧ held = 2)) :
    leavePedalOnly m d o i
      = let r := i.pedal d
        let place := r.position m.now
        let travel := place * (m.map.pedal d).upTravel / 1000
        let assist := 0 < (m.map.pedal d).assistLength ∧ 0 < travel
        let gone := setPedal d
          { { r with holders := r.holders.erase o } with
            state := if travel = 0 then .up else .goingUp
            travel := if travel = 0 then none else some ⟨m.now, place, m.now + travel * 100⟩
            assistEnd := if assist then some (m.now + (m.map.pedal d).assistLength * 100) else none
            bridge := r.bridge.switch m.now (if assist then .reverse (m.map.pedal d).assistDuty else .off) }
          { i with
            unitsInUse := i.unitsInUse - (if assist then held - 1 else held)
            damperDown := if d = .damper then false else i.damperDown }
        if d = .damper then cutShed gone else gone := by
  obtain ⟨r, was⟩ : ∃ r, i.pedal d = r := ⟨_, rfl⟩
  rw [leavePedalOnly_goes m d o i held present empty idle state, was]
  rw [was] at state
  have charge : PedalRecord.charge { r with holders := r.holders.erase o } = held := by
    rcases state with ⟨state, rfl⟩ | ⟨state, rfl⟩ <;> simp [PedalRecord.charge, state]
  have units : held - (goneUp m d true { r with holders := r.holders.erase o }).charge
      = if 0 < (m.map.pedal d).assistLength ∧ 0 < r.position m.now * (m.map.pedal d).upTravel / 1000
        then held - 1 else held := by
    rw [goneUp_charge, PedalRecord.position_holders]
    split <;> rfl
  rw [goUpOnly_eq, pedalGoneUp, setPedal_pedal, charge, units, goneUp_eq, PedalRecord.position_holders]
  cases d <;> rfl

/-- The last source leaves a pedal that is UP or GOING-UP: it stays so. -/
theorem leavePedalOnly_stays {m : Moment} {d : PedalName} {o : Origin} {i : Instrument}
    (present : (i.pedal d).holders.has o = true) (empty : ((i.pedal d).holders.erase o).isEmpty = true)
    (idle : (i.pedal d).requestMoment = none) (state : (i.pedal d).state = .up ∨ (i.pedal d).state = .goingUp) :
    leavePedalOnly m d o i = setPedal d { i.pedal d with holders := (i.pedal d).holders.erase o } i := by
  obtain ⟨r, was⟩ : ∃ r, i.pedal d = r := ⟨_, rfl⟩
  unfold leavePedalOnly upRequestOnly
  rw [was] at present empty idle state ⊢
  dsimp only
  rw [if_pos present, if_pos empty, setPedal_pedal, if_neg (by simp [idle])]
  rcases state with state | state <;> simp only [state]

end

/-- Settles O16: the pause of the session; the roll that leaves every key and pedal; and what each key and each pedal does as the roll
leaves it. -/
theorem pausePauses : Obligations.PausePauses := by
  refine ⟨fun l s taken holds plays => ?request, fun m i => ?effects, fun m k i => ?key, fun m d o i => ?pedal⟩
  case request =>
    have ran : runPause l s = accept (fun e p => pauseSession e .request p) s := by
      have inside : s.sessionIn [.playing, .starved] = true := by rwa [sessionIn_iff, List.mem_pair]
      unfold runPause
      rw [require_pass holds, require_pass inside]
    refine exec_accepted taken rfl ran ?_
    have target : (if (pauseEffects s.env s.perf).session.state = .ending then ResumeTarget.ending else .playing) = .playing := by
      rw [pauseEffects_session]
      rcases plays with state | state <;> exact if_neg (by rw [state]; decide)
    rw [settle_of_left]
    · simp only [pauseSession, onSession, target]
      simp only [pauseEffects, onInstrument, State.moment]
    · exact notCompleting_of_ne nofun
  case effects =>
    obtain ⟨kept, pedals⟩ := pauseInstrument_keeps m i
    simp only [Instrument.keptByPause, Prod.mk.injEq] at kept
    obtain ⟨accepted, merged, dropped, pedalDropped, earlyRelease, monitor⟩ := kept
    exact ⟨pauseInstrument_rollGone m i, pedals, accepted, merged, dropped, pedalDropped, earlyRelease, monitor, rfl⟩
  case key =>
    intro r rest lost left counted becomes loses emptied withdrawn
    have rest_eq : ∀ st, rest st = withoutRoll st := fun st => by
      rw [withoutRoll_eq]
    have left_eq : left = r.leftByRoll := by
      simp only [left, rest_eq]
      rfl
    have counted_eq : { counted with keys := i.keys.set k left } = { i with
        discarded := i.discarded + r.lostToPause, keys := i.keys.set k r.leftByRoll } := by
      simp only [counted, lost, left_eq, rest_eq]
      rfl
    have loses_iff : ((r.armed.isSome && (withoutRoll r.armed).isNone)
        && (decide (r.state = .armed) || decide (r.state = .wait))) = true ↔ loses := by
      simp only [loses, lost, rest_eq, Bool.and_eq_true, Bool.or_eq_true, decide_eq_true_eq]
    have emptied_iff : (r.holders.roll && (r.holders.erase .roll).isEmpty) = true ↔ emptied := by
      simp only [emptied, Bool.and_eq_true, left_eq]
      rfl
    have whenLost (h : loses) : pauseKeyOnly m k i = loseArmedOnly m k { counted with keys := i.keys.set k left } := by
      rw [pauseKeyOnly_eq, counted_eq, if_pos (loses_iff.2 h)]
    have whenEmptied (h : ¬ loses) (h' : emptied) :
        pauseKeyOnly m k i = emptiedOnly m k { counted with keys := i.keys.set k left } := by
      rw [pauseKeyOnly_eq, counted_eq, if_neg (mt loses_iff.1 h), if_pos (emptied_iff.2 h')]
    have whenLeft (h : ¬ loses) (h' : ¬ emptied) : becomes counted left := by
      show pauseKeyOnly m k i = { counted with keys := i.keys.set k left }
      rw [pauseKeyOnly_eq, counted_eq, if_neg (mt loses_iff.1 h), if_neg (mt emptied_iff.1 h')]
    obtain ⟨held, shed, other⟩ := emptiedOnly_set m k counted left
    obtain ⟨rests, arms⟩ := loseArmedOnly_set m k counted left
    have keeps (state : KeyState) (arming : state ≠ .armed ∧ state ≠ .wait) (is : r.state = state) : ¬ loses := fun h => by
      rcases h.2 with armed | wait
      · exact arming.1 (is.symm.trans armed)
      · exact arming.2 (is.symm.trans wait)
    refine ⟨fun notLost notEmptied => ?_, fun empties hold => ?_, fun empties isShed => ?_, fun isLost alone => ?_,
      fun st isLost waits => ⟨fun ahead => ?_, fun passed => ?_⟩⟩
    · by_cases empties : emptied
      · exact (whenEmptied notLost empties).trans
          (other (fun hold => notEmptied ⟨empties, .inl hold⟩) fun isShed => notEmptied ⟨empties, .inr isShed⟩)
      · exact whenLeft notLost empties
    · exact (whenEmptied (keeps .hold ⟨nofun, nofun⟩ hold) empties).trans (held hold)
    · exact (whenEmptied (keeps .shed ⟨nofun, nofun⟩ isShed) empties).trans (shed isShed)
    · have gone : left.armed = none := by
        have lostArmed := isLost.1
        simp only [lost, Bool.and_eq_true, Option.isNone_iff_eq_none] at lostArmed
        exact lostArmed.2
      have rested : ({ left with
          armed := none, requestMoment := none, state := .rest, holders := ⟨false, false, false⟩ } : KeyRecord)
          = { left with requestMoment := none, state := .rest, holders := ⟨false, false, false⟩ } := by
        rw [← gone]
      exact ((whenLost isLost).trans (rests alone)).trans
        (congrArg (fun r' => { withdrawn with keys := i.keys.set k r' }) rested)
    · exact (whenLost isLost).trans ((arms st waits).1 ahead)
    · exact (whenLost isLost).trans ((arms st waits).2 passed)
  case pedal =>
    intro r left place travel assist leaves
    refine ⟨fun absent => if_neg (by simp [r, absent]), fun present occupied => ?_, fun present empty waits => ?_,
      fun present empty idle => ?_⟩
    · unfold leavePedalOnly
      dsimp only
      rw [if_pos present, if_neg (by simpa [left] using occupied)]
    · unfold leavePedalOnly upRequestOnly
      dsimp only
      rw [if_pos present, if_pos empty, setPedal_pedal, if_pos waits, setPedal_setPedal]
      cases d <;> rfl
    · refine ⟨fun state => leavePedalOnly_up 6 present empty idle (.inl ⟨state, rfl⟩),
        fun state => leavePedalOnly_up 2 present empty idle (.inr ⟨state, rfl⟩), leavePedalOnly_stays present empty idle⟩

end Sys2Proof.Machine
end

section
/-! PROOFS. What follows every change (O26), and a line that is read in PLAYING (O45). -/

namespace Sys2Proof.Machine

/-! ### What follows every change (R14, R22) -/

theorem completeEnding_eq (e : Env) (p : Performance) :
    completeEnding e p = { p with
      session := afterStop e p.now (clearSession p.session)
      queue := { p.queue with entries := [] }
      instrument := raiseBoth .rollEnd (pauseInstrument (p.moment e) (countDiscarded p.queue.strikes p.instrument)) } := by
  simp only [completeEnding, stopSession_eq, onInstrument]

theorem settle_of_done {e : Env} {p : Performance} (ending : p.session.state = .ending) (done : rollIsDone p = true) :
    settle e p = completeEnding e p := by
  have completed : testEnding e p = completeEnding e p := if_pos ⟨ending, done⟩
  rw [← settle_testEnding, completed, settle_of_ended (completeEnding_state e p)]

/-- Settles O26: a roll that is done is stopped, and every other change calls for a step or for nothing. -/
theorem settleCompletes : Obligations.SettleCompletes := by
  refine fun e p => ⟨fun stays => ?stays, fun ending done => ?completes⟩
  case stays =>
    have left : notCompleting p := fun ending => stays.resolve_left fun notEnding => notEnding ending
    rw [settle_of_left left]
    rfl
  case completes =>
    obtain ⟨-, pt, endingStart⟩ := afterStop_clear e p.now p.session
    obtain ⟨noticedA, noticedB⟩ := raiseBoth_pendingBoth .rollEnd
      (pauseInstrument (p.moment e) (countDiscarded p.queue.strikes p.instrument))
    rw [settle_of_done ending done, completeEnding_eq]
    refine ⟨?_, rfl, endingStart, pt, noticedA, noticedB⟩
    split
    · next goesIdle => exact congrArg Session.state (afterStop_idle (x := clearSession p.session) (.inr goesIdle))
    · next rewinds =>
      refine congrArg Session.state (afterStop_rewinding (x := clearSession p.session)
        fun goes => rewinds (goes.resolve_left ?_))
      show p.session.state ≠ .free
      rw [ending]
      decide

/-! ### The events of a line come into the queue (R44, R52 to R56) -/

section
variable {e : Env} {ref : Reference} {p : Performance}

theorem handOver_frame (x : Entry) : (handOver e x p).now = p.now ∧ (handOver e x p).detector = p.detector := by
  unfold handOver
  split <;> exact ⟨rfl, rfl⟩

theorem queueEvent_frame (ev : HoleEvent) :
    (queueEvent e ref ev p).now = p.now ∧ (queueEvent e ref ev p).detector = p.detector := by
  unfold queueEvent
  split
  · exact ⟨rfl, rfl⟩
  · split
    · unfold insertEntry
      dsimp only
      split
      · exact handOver_frame _
      · exact ⟨rfl, rfl⟩
    · unfold refuseRoll refusedEffect
      split <;> exact ⟨rfl, rfl⟩

theorem queueEvents_frame (l : List HoleEvent) :
    (queueEvents e ref l p).now = p.now ∧ (queueEvents e ref l p).detector = p.detector := by
  unfold queueEvents
  induction l generalizing p with
  | nil => exact ⟨rfl, rfl⟩
  | cons ev l ih =>
    obtain ⟨now, detector⟩ := ih (p := queueEvent e ref ev p)
    obtain ⟨now', detector'⟩ := queueEvent_frame (e := e) (ref := ref) (p := p) ev
    exact ⟨now.trans now', detector.trans detector'⟩

/-- Nothing is due in a performance with the same entries or fewer, at the same PT, whose clock runs only where it ran. -/
theorem NothingToLaunch.of_sublist {q : Performance} (nothing : NothingToLaunch p)
    (fewer : q.queue.entries.Sublist p.queue.entries) (pt : q.session.pt = p.session.pt)
    (clock : q.session.state.clockRuns = true → p.session.state.clockRuns = true) : NothingToLaunch q := by
  rcases nothing with stands | noneDue
  · refine .inl ?_
    rw [← Bool.not_eq_true] at stands ⊢
    exact fun runs => stands (clock runs)
  · exact .inr fun x queued => pt ▸ noneDue x (fewer.subset queued)

theorem enterEnding_clock {x : Session} (playing : x.state = .playing) :
    (enterEnding x).state.clockRuns = true → x.state.clockRuns = true := fun _ => by rw [playing]; rfl

theorem insertEntry_nothingToLaunch (x : Entry) (nothing : NothingToLaunch p) : NothingToLaunch (insertEntry e x p) := by
  by_cases due : p.session.state.clockRuns = true ∧ x.launch ≤ p.session.pt
  · rw [insertEntry_due due.1 due.2]
    obtain ⟨fewer, -⟩ := handOver_sublist e x { p with
      queue := p.queue.passThrough, instrument := countAccepted x p.instrument }
    rcases handOver_session e x { p with queue := p.queue.passThrough, instrument := countAccepted x p.instrument } with
      same | ⟨playing, ends⟩
    · exact nothing.of_sublist fewer (by rw [same]) (by rw [same]; exact id)
    · exact nothing.of_sublist fewer (by rw [ends]; rfl) (by rw [ends]; exact enterEnding_clock playing)
  · have waits : p.session.state.clockRuns = false ∨ p.session.pt < x.launch := by
      by_cases runs : p.session.state.clockRuns = true
      · exact .inr (Nat.lt_of_not_le fun due' => due ⟨runs, due'⟩)
      · exact .inl (Bool.not_eq_true _ ▸ runs)
    rw [insertEntry_stays waits]
    rcases nothing with stands | noneDue
    · exact .inl stands
    · rcases waits with stands | later
      · exact .inl stands
      · refine .inr fun y queued => ?_
        rcases List.mem_cons.1 ((placeEntry_perm x p.queue.entries).mem_iff.1 queued) with rfl | old
        · exact later
        · exact noneDue y old

theorem refuseRoll_entries (a : Action) : (refuseRoll e a p).queue.entries = p.queue.entries := by
  unfold refuseRoll refusedEffect
  split <;> rfl

theorem queueEvent_nothingToLaunch (ev : HoleEvent) (nothing : NothingToLaunch p) : NothingToLaunch (queueEvent e ref ev p) := by
  unfold queueEvent
  split
  · exact nothing
  · split
    · exact insertEntry_nothingToLaunch _ nothing
    · have same := refuseRoll_session e
      exact nothing.of_sublist (by rw [refuseRoll_entries]) (by rw [same]) (by rw [same]; exact id)

theorem queueEvents_nothingToLaunch (l : List HoleEvent) (nothing : NothingToLaunch p) :
    NothingToLaunch (queueEvents e ref l p) := by
  unfold queueEvents
  induction l generalizing p with
  | nil => exact nothing
  | cons ev l ih => exact ih (queueEvent_nothingToLaunch ev nothing)

end

/-! ### A line that is read in PLAYING (R10, R11, R21, R33) -/

/-- The performance once the events of a line have come into the queue. -/
def lineQueued (e : Env) (out : Detector × List HoleEvent) (p : Performance) : Performance :=
  queueEvents e ⟨p.session.pt, p.session.rollPosition⟩ out.2 (onSession advancePosition { p with detector := out.1 })

/-- The performance once a line taken from its buffer has been read in PLAYING; the line at the highest position ends the roll. -/
def playedLine (e : Env) (out : Detector × List HoleEvent) (sensor : Bool) (p : Performance) : Performance :=
  let p' := afterLine e ⟨p.session.pt, p.session.rollPosition⟩ out sensor p
  if p'.session.state = .playing ∧ p.session.rollPosition = positionMax then onSession enterEnding p' else p'

section
variable {e : Env} {p : Performance} {at_ : Nat} {out : Detector × List HoleEvent} {sensor : Bool}

theorem consumePlaying_of_consume {q : Performance} (pt : q.session.pt = p.session.pt)
    (position : q.session.rollPosition = p.session.rollPosition)
    (consumed : consume e ⟨p.session.pt, p.session.rollPosition⟩ p
      = some (afterLine e ⟨p.session.pt, p.session.rollPosition⟩ out sensor q)) :
    consumePlaying e p = some (playedLine e out sensor q) := by
  unfold consumePlaying playedLine
  dsimp only
  rw [consumed, Option.map_some, pt, position]

theorem consumePlaying_stream {line : TrackLine} {rest : List TrackLine} (source : p.session.source = .stream)
    (lines : p.session.streamBuffer = line :: rest) :
    consumePlaying e p = some (playedLine e (p.detector.streamLine e.map p.session.rollPosition line) false
      (onSession (fun s => { s with streamBuffer := rest }) p)) :=
  consumePlaying_of_consume rfl rfl (by simp only [consume, source, lines])

theorem consumePlaying_sensor {line : SensorLine} {rest : List SensorLine} (source : p.session.source = .sensor)
    (lines : p.session.sensorBuffer = line :: rest) :
    consumePlaying e p = some (playedLine e (p.detector.sensorLine e.map p.session.rollPosition line) true
      (onSession (fun s => { s with sensorBuffer := rest }) p)) :=
  consumePlaying_of_consume rfl rfl (by simp only [consume, source, lines])

/-- A line read in PLAYING faults the session, plays on, or ends the roll. -/
theorem playedLine_cases (playing : p.session.state = .playing) :
    ((sensor && out.1.lost) = true
        ∧ playedLine e out sensor p = faultSession e .trackLost (onSession advancePosition { p with detector := out.1 }))
      ∨ ((sensor && out.1.lost) = false ∧ (lineQueued e out p).session = advancePosition p.session
          ∧ p.session.rollPosition ≠ positionMax ∧ playedLine e out sensor p = lineQueued e out p)
      ∨ ((sensor && out.1.lost) = false
          ∧ playedLine e out sensor p = { lineQueued e out p with session := enterEnding (advancePosition p.session) }) := by
  cases lost : sensor && out.1.lost with
  | true =>
    refine .inl ⟨rfl, ?_⟩
    have faults : afterLine e ⟨p.session.pt, p.session.rollPosition⟩ out sensor p
        = faultSession e .trackLost (onSession advancePosition { p with detector := out.1 }) := if_pos lost
    rw [playedLine, faults]
    exact if_neg fun plays => absurd ((faultSession_state ..).symm.trans plays.1) (by decide)
  | false =>
    refine .inr ?_
    have queues : afterLine e ⟨p.session.pt, p.session.rollPosition⟩ out sensor p = lineQueued e out p :=
      if_neg (by rw [lost]; decide)
    rw [playedLine, queues]
    rcases queueEvents_session_cases e ⟨p.session.pt, p.session.rollPosition⟩ out.2
        (onSession advancePosition { p with detector := out.1 }) with same | ⟨-, ends⟩
    · have stays : (lineQueued e out p).session = advancePosition p.session := same
      by_cases highest : p.session.rollPosition = positionMax
      · refine .inr ⟨rfl, ?_⟩
        rw [← stays]
        exact if_pos ⟨(congrArg Session.state stays).trans playing, highest⟩
      · exact .inl ⟨rfl, stays, highest, if_neg fun both => highest both.2⟩
    · have ended : (lineQueued e out p).session = enterEnding (advancePosition p.session) := ends
      refine .inr ⟨rfl, ?_⟩
      rw [← ended]
      refine if_neg fun plays => ?_
      rw [ended] at plays
      cases plays.1

/-- What reading a line in PLAYING leaves, once the next interval has begun and what follows every change has followed. -/
structure LineRead (e : Env) (at_ : Nat) (out : Detector × List HoleEvent) (lost : Bool) (p r : Performance) : Prop where
  now : r.now = p.now
  detector : r.detector = out.1
  pt : r.session.pt = p.session.pt
  last : r.session.lastPosition = p.session.rollPosition
  position : r.session.rollPosition = min positionMax (p.session.rollPosition + 1)
  states : r.session.state = .playing ∨ r.session.state = .ending ∨ r.session.state = .faulted
    ∨ r.session.state = .idle ∨ r.session.state = .rewinding
  playing : r.session.state = .playing →
    r.session = forwardStep p.now (beginInterval at_ (advancePosition p.session)) ∧ p.session.rollPosition ≠ positionMax
  events : r.session.state = .playing ∨ r.session.state = .ending →
    r.queue = (lineQueued e out p).queue ∧ r.instrument = (lineQueued e out p).instrument
      ∧ r.expression = (lineQueued e out p).expression
  lost_iff : lost = true ↔ r.session.state = .faulted
  fault : r.session.state = .faulted → r.session.faultCause = .trackLost ∧ r.queue = p.queue

/-- The next forward step changes nothing of the session but what steps the roll. -/
theorem forwardStep_same (now : Nat) (x : Session) :
    ∃ direction pulses timer rewind, forwardStep now x
      = { x with direction := direction, stepPulses := pulses, stepTimer := timer, rewindCount := rewind } := by
  unfold forwardStep
  split
  · exact ⟨_, _, _, _, rfl⟩
  · exact ⟨_, _, _, _, rfl⟩

theorem settle_of_faulted (faulted : p.session.state = .faulted) : settle e p = p :=
  settle_of_calm (notCompleting_of_ne (by rw [faulted]; decide)) (by simp [Session.wantsStep, Session.steps, faulted])

/-- A session in ENDING completes, or it stays. -/
theorem settle_of_ending (ending : p.session.state = .ending) : settle e p = completeEnding e p ∨ settle e p = p := by
  cases done : rollIsDone p with
  | true => exact .inl (settle_of_done ending done)
  | false =>
    exact .inr (settle_of_calm (fun _ => done) (by simp [Session.wantsStep, Session.steps, ending]))

theorem lineQueued_frame : (lineQueued e out p).now = p.now ∧ (lineQueued e out p).detector = out.1 :=
  queueEvents_frame out.2

theorem lineRead (playing : p.session.state = .playing) :
    LineRead e at_ out (sensor && out.1.lost) p (settle e (continuePlaying at_ (playedLine e out sensor p))) := by
  obtain ⟨now, detector⟩ := lineQueued_frame (e := e) (p := p) (out := out)
  rcases playedLine_cases (e := e) (out := out) (sensor := sensor) playing with
    ⟨lost, faults⟩ | ⟨kept, stays, below, plays⟩ | ⟨kept, ends⟩
  · have halts : continuePlaying at_ (playedLine e out sensor p) = playedLine e out sensor p :=
      if_neg (by rw [faults, faultSession_state]; decide)
    rw [halts, faults, settle_of_faulted (faultSession_state ..)]
    have queue : (faultSession e .trackLost (onSession advancePosition { p with detector := out.1 })).queue = p.queue := by
      simp [faultSession]
    exact ⟨by simp [faultSession], by simp [faultSession], by simp [faultSession, advancePosition],
      by simp [faultSession, advancePosition], by simp [faultSession, advancePosition], .inr (.inr (.inl rfl)), nofun,
      (fun plays => by rcases plays with plays | plays <;> cases plays), iff_of_true lost rfl, fun _ => ⟨rfl, queue⟩⟩
  · have begins : continuePlaying at_ (playedLine e out sensor p)
        = { lineQueued e out p with session := beginInterval at_ (advancePosition p.session) } := by
      rw [plays, continuePlaying, if_pos ((congrArg Session.state stays).trans playing), onSession, stays]
    have state : (beginInterval at_ (advancePosition p.session)).state = .playing := playing
    obtain ⟨_, _, _, _, steps⟩ := forwardStep_same p.now (beginInterval at_ (advancePosition p.session))
    rw [begins, settle_of_left (notCompleting_of_ne (by rw [state]; decide))]
    dsimp only [onSession]
    rw [now]
    refine ⟨rfl, detector, ?_, ?_, ?_, .inl ?_, fun _ => ⟨rfl, below⟩, fun _ => ⟨rfl, rfl, rfl⟩,
      iff_of_false (by rw [kept]; decide) ?_, fun faulted => absurd (state.symm.trans ?_) (by decide : SessionState.playing ≠ .faulted)⟩
    · rw [steps]; rfl
    · rw [steps]; rfl
    · rw [steps]; rfl
    · rw [steps]; exact state
    · rw [steps]
      exact fun faulted => absurd (state.symm.trans faulted) (by decide)
    · rwa [steps] at faulted
  · have halts : continuePlaying at_ (playedLine e out sensor p) = playedLine e out sensor p :=
      if_neg (by rw [ends]; nofun)
    have notLost : ¬ (sensor && out.1.lost) = true := by rw [kept]; decide
    rw [halts, ends]
    rcases settle_of_ending (e := e) (p := { lineQueued e out p with session := enterEnding (advancePosition p.session) }) rfl with
      completed | stays
    · have ended := completeEnding_state e { lineQueued e out p with session := enterEnding (advancePosition p.session) }
      obtain ⟨_, _, _, same⟩ := afterStop_keeps (e := e) (now := (lineQueued e out p).now)
        (x := clearSession (enterEnding (advancePosition p.session)))
      rw [completed]
      rw [completeEnding_eq] at ended ⊢
      dsimp only at ended ⊢
      refine ⟨now, detector, ?_, ?_, ?_, .inr (.inr (.inr ended)), fun playing => ?_, fun live => ?_,
        iff_of_false notLost fun faulted => ?_, fun faulted => ?_⟩
      · rw [same]; rfl
      · rw [same]; rfl
      · rw [same]; rfl
      · rcases ended with state | state <;> rw [state] at playing <;> cases playing
      · rcases ended with state | state <;> rw [state] at live <;> rcases live with live | live <;> cases live
      · rcases ended with state | state <;> rw [state] at faulted <;> cases faulted
      · rcases ended with state | state <;> rw [state] at faulted <;> cases faulted
    · rw [stays]
      exact ⟨now, detector, rfl, rfl, rfl, .inr (.inl rfl), nofun, fun _ => ⟨rfl, rfl, rfl⟩, iff_of_false notLost nofun, nofun⟩

end

end Sys2Proof.Machine
end

section
/-! PROOFS. The intervals of PLAYING: a line is read, the session starves, or a drained stream ends (O45). -/

namespace Sys2Proof.Machine

/-! ### An event that reaches its moment (log 4) -/

theorem exec_moment {c : Instr} {s : State} {moment : Env → Performance → Option Nat} {f : Env → Nat → Performance → Performance}
    {t : Nat} (running : s.running = true)
    (dispatched : exec c s = .next (changePerf (fun e p => atMoment (moment e p) (f e) p) s))
    (reached : moment s.env s.perf = some t) : exec c s = .next (settled s (f s.env t (advanceTo t s.perf))) := by
  rw [dispatched, changePerf_running running, reached]
  rfl

/-! ### What launches leave as it was (R59, R60) -/

section
variable {e : Env} {p : Performance}

/-- What every launch keeps is kept where every due entry launches. -/
theorem launchDue_induct {P : Performance → Prop}
    (launch : ∀ p x left, P p → p.session.state.clockRuns = true → P (testEnding e (handOver e x (withEntries left p))))
    (holds : P p) : P (launchDue e p) := by
  have launches : ∀ fuel p, P p → P (launchUpTo e fuel p) := by
    intro fuel
    induction fuel with
    | zero => exact fun _ => id
    | succ fuel ih =>
      intro p holds
      unfold launchUpTo
      split
      · next runs =>
        split
        · exact holds
        · next launched =>
          obtain ⟨⟨x, left⟩, -, rfl⟩ := Option.map_eq_some_iff.1 launched
          exact ih _ (launch p x left holds runs)
      · exact holds
  exact launches _ p holds

theorem completeEnding_detector : (completeEnding e p).detector = p.detector := by rw [completeEnding_eq]

theorem testEnding_detector : (testEnding e p).detector = p.detector := by
  rcases testEnding_cases e p with completed | same
  · rw [completed, completeEnding_detector]
  · rw [same]

theorem launchDue_detector : (launchDue e p).detector = p.detector := by
  refine launchDue_induct (P := fun q => q.detector = p.detector) (fun q x left same _ => ?_) rfl
  rw [testEnding_detector, (handOver_frame x).2]
  exact same

/-! ### A drained stream (R21, R45) -/

theorem closeStep_hole (k : Track) (c : Nat) (h : Hole) : (closeStep k c h).hole = .closed := by
  cases h with
  | closed => rfl
  | opening => rfl
  | opened start => exact (endStep_closes k start c c).1
  | closing start paper => exact (endStep_closes k start paper c).1

theorem closeHoles_closed (map : RegulationMap) (c : Nat) (d : Detector) (k : Track) :
    (d.closeHoles map c).1.holes[k] = .closed := by
  obtain ⟨holes, -⟩ := takeSteps_readsLine map.expression.splitKey (fun k hole => closeStep k c hole) d
  exact (holes k).trans (closeStep_hole ..)

/-- The performance of a drained stream, before what is due launches. -/
def drained (e : Env) (p : Performance) : Performance :=
  let out := p.detector.closeHoles e.map p.session.rollPosition
  queueEvents e ⟨p.session.pt, p.session.rollPosition⟩ out.2
    { p with session := enterEnding p.session, detector := out.1 }

theorem drainSession_eq : drainSession e p = launchDue e (drained e p) := rfl

theorem drained_frame : (drained e p).now = p.now
    ∧ (drained e p).detector = (p.detector.closeHoles e.map p.session.rollPosition).1
    ∧ (drained e p).session = enterEnding p.session := by
  obtain ⟨now, detector⟩ := queueEvents_frame (e := e) (ref := ⟨p.session.pt, p.session.rollPosition⟩)
    (p := { p with session := enterEnding p.session, detector := (p.detector.closeHoles e.map p.session.rollPosition).1 })
    (p.detector.closeHoles e.map p.session.rollPosition).2
  refine ⟨now, detector, ?_⟩
  rcases queueEvents_session_cases e ⟨p.session.pt, p.session.rollPosition⟩ (p.detector.closeHoles e.map p.session.rollPosition).2
    { p with session := enterEnding p.session, detector := (p.detector.closeHoles e.map p.session.rollPosition).1 } with
    same | ⟨playing, -⟩
  · exact same
  · cases playing

/-- A stream that is drained is ENDING from PT, or already IDLE. -/
def EndedFrom (x : Session) (p : Performance) : Prop := p.session = enterEnding x ∨ p.session.state = .idle

theorem EndedFrom.testEnding {x : Session} (stream : x.source = .stream) (ended : EndedFrom x p) : EndedFrom x (testEnding e p) := by
  rcases testEnding_cases e p with completed | same
  · rcases ended with ending | idle
    · refine .inr ?_
      rw [completed, completeEnding_eq, ending]
      exact congrArg Session.state (afterStop_idle (x := clearSession (enterEnding x)) (.inr (.inl stream)))
    · rw [testEnding_of_ne (by rw [idle]; decide)]
      exact .inr idle
  · rwa [same]

theorem EndedFrom.launch {x : Session} (stream : x.source = .stream) (ended : EndedFrom x p) : EndedFrom x (launchDue e p) := by
  refine launchDue_induct (P := EndedFrom x) (fun q y left ended runs => .testEnding stream ?_) ended
  rcases ended with ending | idle
  · rcases handOver_session e y (withEntries left q) with same | ⟨playing, -⟩
    · exact .inl (same.trans ending)
    · rw [show (withEntries left q).session = enterEnding x from ending] at playing
      cases playing
  · rw [idle] at runs
    cases runs

/-- What a drained stream leaves, with what follows every change. -/
theorem settle_drainSession (stream : p.session.source = .stream) :
    let r := settle e (drainSession e p)
    (r.session.state = .ending ∨ r.session.state = .idle)
      ∧ (r.session.state = .ending → r.session.endingStart = some p.session.pt)
      ∧ ∀ k : Track, r.detector.holes[k] = .closed := by
  intro r
  obtain ⟨-, detector, session⟩ := drained_frame (e := e) (p := p)
  have ended : EndedFrom p.session (testEnding e (drainSession e p)) :=
    .testEnding stream (.launch stream (.inl session))
  obtain ⟨_, _, _, _, steps⟩ := forwardStep_same (testEnding e (drainSession e p)).now (testEnding e (drainSession e p)).session
  have final : r.session = _ := steps
  refine ⟨?_, fun ending => ?_, fun k => ?_⟩
  · rw [final]
    rcases ended with ending | idle
    · exact .inl (congrArg Session.state ending)
    · exact .inr idle
  · rw [final] at ending ⊢
    rcases ended with same | idle
    · exact congrArg Session.endingStart same
    · rw [idle] at ending
      cases ending
  · have same : r.detector = (p.detector.closeHoles e.map p.session.rollPosition).1 := by
      show (testEnding e (drainSession e p)).detector = _
      rw [testEnding_detector, drainSession_eq, launchDue_detector, detector]
    rw [same, closeHoles_closed]

end

/-! ### LINE_INTERVAL_END (R10 to R12) -/

theorem playLine_of_some {e : Env} {at_ : Nat} {p p' : Performance} (consumed : consumePlaying e (onSession nextIndex p) = some p') :
    playLine e at_ p = continuePlaying at_ p' := by
  unfold playLine
  dsimp only
  rw [consumed]

theorem consumePlaying_none {e : Env} {p : Performance}
    (empty : (p.session.source = .sensor ∧ p.session.sensorBuffer = [])
      ∨ (p.session.source = .stream ∧ p.session.streamBuffer = [])) :
    consumePlaying e p = none := by
  rcases empty with ⟨source, lines⟩ | ⟨source, lines⟩ <;> simp only [consumePlaying, consume, source, lines, Option.map_none]

theorem playLine_of_none {e : Env} {at_ : Nat} {p : Performance} (none : consumePlaying e (onSession nextIndex p) = none) :
    playLine e at_ p = if p.session.source = .stream ∧ p.session.streamOpen = false then drainSession e (onSession nextIndex p)
      else onInstrument e (fun _ i => raiseBoth .starved i)
        (onSession (fun s => { s with state := .starved, intervalEnd := Option.none }) (onSession nextIndex p)) := by
  unfold playLine
  dsimp only
  rw [none]
  rfl

theorem exec_lineIntervalEnd {s : State} {t : Nat} (running : s.running = true) (playing : s.perf.session.state = .playing)
    (ends : s.perf.session.intervalEnd = some t) :
    exec .lineIntervalEnd s = .next (settled s (playLine s.env t (advanceTo t s.perf))) :=
  exec_moment (moment := fun _ p => p.session.playingEnd) (f := fun e => playLine e) running rfl
    ((if_pos playing).trans ends)

/-- The session once real time has gone to a moment: as it was, but for PT. -/
theorem advanceTo_session (t : Nat) (p : Performance) :
    (advanceTo t p).session
      = { p.session with
          pt := (advanceTo t p).session.pt
          ptFraction := (advanceTo t p).session.ptFraction
          ptSince := (advanceTo t p).session.ptSince } := advance_session ..

/-- Settles O45: the line that is there is read; with none the session starves, or a drained stream ends. -/
theorem playingLines : Obligations.PlayingLines := by
  intro t s running x playing ends ahead p0 position index began consumed
  have executed := exec_lineIntervalEnd running playing ends
  have same := advanceTo_session t s.perf
  have reached : p0.now = t := advanceTo_now ahead
  have positionEq : p0.session.rollPosition = position := by rw [same]
  have indexEq : (p0.session.frameIndex + 1) % 32 = index := by rw [same]
  have detectorEq : p0.detector = s.perf.detector := advance_detector ..
  have instrumentEq : p0.instrument = s.perf.instrument := advance_instrument ..
  have reads (out : Detector × List HoleEvent) (sensor : Bool) (images : List SensorLine) (lines : List TrackLine)
      (taken : consumePlaying s.env (onSession nextIndex p0) = some (playedLine s.env out sensor
        (onSession (fun s => { s with sensorBuffer := images, streamBuffer := lines }) (onSession nextIndex p0)))) :
      ∃ p, consumed out { p0.session with sensorBuffer := images, streamBuffer := lines } p
        ∧ (p.session.state = .playing → p.session.sensorBuffer = images ∧ p.session.streamBuffer = lines)
        ∧ ((sensor && out.1.lost) = true ↔ p.session.state = .faulted)
        ∧ (p.session.state = .faulted → p.session.faultCause = .trackLost ∧ p.queue = s.perf.queue) := by
    have plays : (onSession (fun s => { s with sensorBuffer := images, streamBuffer := lines })
        (onSession nextIndex p0)).session.state = .playing := (advanceTo_state t).trans playing
    have read := lineRead (e := s.env) (at_ := t) (out := out) (sensor := sensor) plays
    have queued : lineQueued s.env out (onSession (fun s => { s with sensorBuffer := images, streamBuffer := lines })
        (onSession nextIndex p0)) = queueEvents s.env ⟨p0.session.pt, position⟩ out.2 { p0 with detector := out.1, session :=
          { { p0.session with sensorBuffer := images, streamBuffer := lines } with
            frameIndex := index, lastPosition := position, rollPosition := min 4194303 (position + 1) } } := by
      rw [← positionEq, ← indexEq]
      rfl
    have goesOn : ∀ r : Performance, r.session = forwardStep p0.now (beginInterval t (advancePosition
        { nextIndex p0.session with sensorBuffer := images, streamBuffer := lines })) →
        (r.session.frameIndex = began ∧ r.session.newFrame = false
          ∧ r.session.intervalEnd = some (t + (x.tempo / 32 + (if began < x.tempo % 32 then 1 else 0))))
        ∧ r.session.sensorBuffer = images ∧ r.session.streamBuffer = lines := by
      intro r session
      obtain ⟨_, _, _, _, steps⟩ := forwardStep_same p0.now (beginInterval t (advancePosition
        { nextIndex p0.session with sensorBuffer := images, streamBuffer := lines }))
      have frame : (if p0.session.newFrame then 0 else (p0.session.frameIndex + 1) % 32) = began := by rw [same]
      have tempo : p0.session.tempo = x.tempo := by rw [same]
      rw [session, steps, ← frame, ← tempo]
      exact ⟨⟨rfl, rfl, rfl⟩, rfl, rfl⟩
    refine ⟨_, ⟨executed.trans (by rw [settled, playLine_of_some taken]), read.now.trans reached, read.pt, fun plays => ?_,
      read.detector, read.last.trans positionEq, read.position.trans (by rw [← positionEq]; rfl),
      fun plays => (goesOn _ (read.playing plays).1).1, read.states, fun highest plays => ?_⟩,
      fun plays => (goesOn _ (read.playing plays).1).2, read.lost_iff, fun faulted => ?_⟩
    · rw [← queued]
      exact read.events (.inl plays)
    · exact (read.playing plays).2 (positionEq.trans highest)
    · obtain ⟨cause, queue⟩ := read.fault faulted
      exact ⟨cause, queue.trans (advanceTo_queue t)⟩
  refine ⟨fun line rest source lines => ?stream, fun line rest source lines => ?sensor, fun empty => ?starves,
    fun source empty closed => ?drains⟩
  case stream =>
    obtain ⟨p, read, plays, lost, -⟩ := reads (s.perf.detector.streamLine s.map position line) false p0.session.sensorBuffer rest (by
      rw [consumePlaying_stream (by exact (congrArg Session.source same).trans source)
        (by exact (congrArg Session.streamBuffer same).trans lines), ← positionEq, ← detectorEq]
      rfl)
    exact ⟨p, read, fun faulted => by simpa using lost.2 faulted, fun playing => (plays playing).2⟩
  case sensor =>
    obtain ⟨p, read, plays, lost, fault⟩ := reads (s.perf.detector.sensorLine s.map position line) true rest p0.session.streamBuffer (by
      rw [consumePlaying_sensor (by exact (congrArg Session.source same).trans source)
        (by exact (congrArg Session.sensorBuffer same).trans lines), ← positionEq, ← detectorEq]
      rfl)
    refine ⟨p, read, fun playing => (plays playing).1, ?_, fault⟩
    obtain ⟨-, -, -, -, detector, -⟩ := read
    rw [← lost, detector]
    simp [Detector.lost]
  case starves =>
    have none : consumePlaying s.env (onSession nextIndex p0) = none := by
      refine consumePlaying_none ?_
      show (p0.session.source = _ ∧ p0.session.sensorBuffer = _) ∨ (p0.session.source = _ ∧ p0.session.streamBuffer = _)
      rw [same]
      exact empty.imp id fun stream => ⟨stream.1, stream.2.1⟩
    have stays : ¬ (p0.session.source = .stream ∧ p0.session.streamOpen = false) := by
      rw [same]
      rintro ⟨source, closed⟩
      rcases empty with ⟨sensor, -⟩ | ⟨-, -, open_⟩
      · exact absurd (sensor.symm.trans source) (by decide)
      · exact absurd (open_.symm.trans closed) (by decide)
    rw [executed, playLine_of_none none, if_neg stays, ← indexEq, ← instrumentEq]
    rfl
  case drains =>
    have none : consumePlaying s.env (onSession nextIndex p0) = none := by
      refine consumePlaying_none (.inr ?_)
      show p0.session.source = _ ∧ p0.session.streamBuffer = _
      rw [same]
      exact ⟨source, empty⟩
    have drains : p0.session.source = .stream ∧ p0.session.streamOpen = false := by
      rw [same]
      exact ⟨source, closed⟩
    obtain ⟨ended, start, holes⟩ := settle_drainSession (e := s.env) (p := onSession nextIndex p0) drains.1
    refine ⟨_, executed.trans (by rw [settled, playLine_of_none none, if_pos drains]), ended, start, holes, ?_⟩
    intro out q noneDue left
    have queued : q = drained s.env (onSession nextIndex p0) := by
      simp only [q, out]
      rw [← positionEq, ← indexEq, ← detectorEq]
      rfl
    have ending : q.session.state = .ending := by
      rw [queued, drained_frame.2.2]
      rfl
    rw [drainSession_eq, ← queued, launchDue_of_none noneDue]
    exact settle_of_calm (fun _ => left) (by simp [Session.wantsStep, Session.steps, ending])

end Sys2Proof.Machine
end

section
/-! PROOFS. The resumption from STARVED, and the stream requests (O20, O21). -/

namespace Sys2Proof.Machine

/-! ### The resumption from STARVED (R12, R59) -/

section
variable {e : Env} {p : Performance}

/-- A line that is consumed in PLAYING is read from a performance with its buffer one line shorter. -/
theorem consumePlaying_some {p' : Performance} (consumed : consumePlaying e p = some p') :
    ∃ out sensor q, p' = playedLine e out sensor q ∧ q.queue = p.queue ∧ q.session.state = p.session.state
      ∧ q.session.pt = p.session.pt := by
  obtain ⟨read, taken, rfl⟩ := Option.map_eq_some_iff.1 consumed
  rcases consume_cases taken with ⟨line, rest, -, -, was⟩ | ⟨line, rest, -, -, was⟩ <;> rw [was]
  · generalize p.detector.sensorLine e.map p.session.rollPosition line = out
    exact ⟨out, true, onSession (fun s => { s with sensorBuffer := rest }) p, rfl, rfl, rfl, rfl⟩
  · generalize p.detector.streamLine e.map p.session.rollPosition line = out
    exact ⟨out, false, onSession (fun s => { s with streamBuffer := rest }) p, rfl, rfl, rfl, rfl⟩

theorem playedLine_nothingToLaunch {out : Detector × List HoleEvent} {sensor : Bool} (playing : p.session.state = .playing)
    (nothing : NothingToLaunch p) : NothingToLaunch (playedLine e out sensor p) := by
  have queued : NothingToLaunch (lineQueued e out p) :=
    queueEvents_nothingToLaunch out.2 (nothing.of_sublist (.refl _) rfl id)
  rcases playedLine_cases (e := e) (out := out) (sensor := sensor) playing with
    ⟨-, faults⟩ | ⟨-, -, -, plays⟩ | ⟨-, ends⟩
  · rw [faults]
    exact .inl rfl
  · rwa [plays]
  · rw [ends]
    rcases queueEvents_session_cases e ⟨p.session.pt, p.session.rollPosition⟩ out.2
        (onSession advancePosition { p with detector := out.1 }) with same | ⟨-, ending⟩
    · have stays : (lineQueued e out p).session = advancePosition p.session := same
      exact queued.of_sublist (.refl _) (by rw [stays]; rfl)
        fun _ => by rw [stays]; exact congrArg SessionState.clockRuns playing
    · have ended : (lineQueued e out p).session = enterEnding (advancePosition p.session) := ending
      exact queued.of_sublist (.refl _) (by rw [ended]) fun _ => by rw [ended]; rfl

theorem launchDue_notStarved (notStarved : p.session.state ≠ .starved) : (launchDue e p).session.state ≠ .starved := by
  refine launchDue_induct (P := fun q => q.session.state ≠ .starved) (fun q x left kept _ => ?_) notStarved
  have handed : (handOver e x (withEntries left q)).session.state ≠ .starved := by
    rcases handOver_session e x (withEntries left q) with same | ⟨-, ends⟩
    · rw [same]
      exact kept
    · rw [ends]
      nofun
  rcases testEnding_cases e (handOver e x (withEntries left q)) with completed | same
  · rw [completed]
    rcases completeEnding_state e (handOver e x (withEntries left q)) with state | state <;> rw [state] <;> decide
  · rwa [same]

theorem continuePlaying_nothingToLaunch (at_ : Nat) (nothing : NothingToLaunch p) : NothingToLaunch (continuePlaying at_ p) := by
  unfold continuePlaying
  split
  · exact nothing.of_sublist (.refl _) rfl id
  · exact nothing

/-- A session that leaves STARVED with a line plays on, ends or faults, and nothing is due in it (log 20). -/
theorem resumeStarved_resumes (starved : p.session.state = .starved) (available : lineAvailable p.session = true) :
    (settle e (resumeStarved e p)).session.state ≠ .starved ∧ NothingToLaunch (settle e (resumeStarved e p)) := by
  obtain ⟨q, launched⟩ : ∃ q, launchDue e (onSession (fun s => { s with state := .playing }) p) = q := ⟨_, rfl⟩
  have resumed : resumeStarved e p
      = if q.session.state = .playing then continuePlaying q.now ((consumePlaying e q).getD q) else q := by
    rw [resumeStarved, if_pos starved, if_pos available, ← launched]
  have nothing : NothingToLaunch q := launched ▸ launchDue_leaves_none ..
  have notStarved : q.session.state ≠ .starved := launched ▸ launchDue_notStarved nofun
  have settles : ∀ r : Performance, NothingToLaunch r → r.session.state ≠ .starved →
      (settle e r).session.state ≠ .starved ∧ NothingToLaunch (settle e r) := by
    intro r nothing notStarved
    refine ⟨?_, settle_nothingToLaunch nothing e⟩
    show (forwardStep _ (testEnding e r).session).state ≠ _
    rw [(forwardStep_keeps _ _).1]
    rcases testEnding_cases e r with completed | same
    · rw [completed]
      rcases completeEnding_state e r with state | state <;> rw [state] <;> decide
    · rwa [same]
  rw [resumed]
  split
  · next playing =>
    cases consumed : consumePlaying e q with
    | none =>
      refine settles _ (continuePlaying_nothingToLaunch _ nothing) ?_
      rw [Option.getD_none, continuePlaying, if_pos playing]
      exact fun starved => absurd (playing.symm.trans starved) (by decide)
    | some q' =>
      obtain ⟨out, sensor, y, rfl, queue, state, pt⟩ := consumePlaying_some consumed
      have plays : y.session.state = .playing := state.trans playing
      have ready : NothingToLaunch y := nothing.of_sublist (by rw [queue]) pt fun runs => state ▸ runs
      refine ⟨?_, settle_nothingToLaunch (continuePlaying_nothingToLaunch _ (playedLine_nothingToLaunch plays ready)) e⟩
      rw [Option.getD_some]
      rcases (lineRead (e := e) (at_ := q.now) (out := out) (sensor := sensor) plays).states with
        state | state | state | state | state <;> rw [state] <;> decide
  · exact settles _ nothing notStarved

/-- With nothing due, a session that leaves STARVED reads its oldest line. -/
theorem resumeStarved_reads {out : Detector × List HoleEvent} {sensor : Bool} {q : Performance}
    (starved : p.session.state = .starved) (available : lineAvailable p.session = true) (noneDue : noneDue p)
    (taken : consumePlaying e (onSession (fun s => { s with state := .playing }) p) = some (playedLine e out sensor q)) :
    resumeStarved e p = continuePlaying p.now (playedLine e out sensor q) := by
  rw [resumeStarved, if_pos starved, if_pos available]
  dsimp only
  have plays : (onSession (fun s => { s with state := .playing }) p).session.state = .playing := rfl
  rw [launchDue_of_none (p := onSession (fun s => { s with state := .playing }) p) noneDue, if_pos plays, taken,
    Option.getD_some]
  rfl

end

/-- What reading a line leaves is what a resumption leaves, where the line is read from the session that starved. -/
theorem LineRead.resumesWith {s : State} {out : Detector × List HoleEvent} {lost : Bool} {y : Session} {r : Performance}
    (read : LineRead s.env s.perf.now out lost { s.perf with session := y } r) (playing : y.state = .playing)
    (same : y.pt = s.perf.session.pt ∧ y.tempo = s.perf.session.tempo ∧ y.rollPosition = s.perf.session.rollPosition
      ∧ y.frameIndex = s.perf.session.frameIndex ∧ y.newFrame = s.perf.session.newFrame) : resumesWith s out r := by
  obtain ⟨pt, tempo, position, frameIndex, newFrame⟩ := same
  refine ⟨read.now, read.pt.trans pt, read.detector, fun live => ⟨advancePosition y, playing, pt, tempo, ?_⟩,
    read.last.trans position, read.position.trans (by rw [← position]; rfl), fun plays => ?_, read.states,
    fun highest plays => (read.playing plays).2 (position.trans highest)⟩
  · rw [← pt, ← position]
    exact read.events live
  · obtain ⟨_, _, _, _, steps⟩ := forwardStep_same s.perf.now (beginInterval s.perf.now (advancePosition y))
    rw [(read.playing plays).1]
    dsimp only
    rw [steps, ← frameIndex, ← newFrame, ← tempo]
    exact ⟨rfl, rfl, rfl⟩

/-! ### STREAM-LINES and STREAM-CLOSE (R13, R16, R17) -/

section
variable {e : Env} {p : Performance}

theorem streamPreRoll_of_other (other : p.session.state ≠ .preparing) : streamPreRoll e p = p :=
  if_neg fun both => other both.1

theorem resumeStarved_of_other (other : p.session.state ≠ .starved) : resumeStarved e p = p := if_neg other

/-- A stream that sets nothing off changes nothing. -/
theorem streamChanged_of_calm (other : p.session.state ≠ .preparing) (other' : p.session.state ≠ .starved) :
    streamChanged e p = p := by
  rw [streamChanged, streamPreRoll_of_other other, resumeStarved_of_other other']

theorem streamChanged_starved (starved : p.session.state = .starved) : streamChanged e p = resumeStarved e p := by
  rw [streamChanged, streamPreRoll_of_other (by rw [starved]; decide)]

/-- An open stream short of D + 32 lines keeps a PREPARING session as it is. -/
theorem streamChanged_preparing (preparing : p.session.state = .preparing) (opened : p.session.streamOpen = true)
    (short : p.session.streamBuffer.length < e.map.tracker.soundingDistance + 32) : streamChanged e p = p := by
  have waits : streamPreRoll e p = p := by
    unfold streamPreRoll
    dsimp only
    split
    · rw [if_neg (by omega), if_neg (by simp [opened])]
    · rfl
  rw [streamChanged, waits, resumeStarved_of_other (by rw [preparing]; decide)]

/-- An open stream short of 32 lines keeps a STARVED session as it is. -/
theorem streamChanged_short (starved : p.session.state = .starved) (stream : p.session.source = .stream)
    (opened : p.session.streamOpen = true) (short : p.session.streamBuffer.length < 32) : streamChanged e p = p := by
  have none : lineAvailable p.session = false := by
    unfold lineAvailable
    rw [stream, opened]
    simpa using short
  rw [streamChanged_starved starved, resumeStarved, if_pos starved, none, if_neg Bool.false_ne_true, if_neg (by simp [opened])]

/-- A closed stream that holds no line drains a STARVED session. -/
theorem streamChanged_drains (starved : p.session.state = .starved) (stream : p.session.source = .stream)
    (closed : p.session.streamOpen = false) (empty : p.session.streamBuffer = []) : streamChanged e p = drainSession e p := by
  have none : lineAvailable p.session = false := by
    unfold lineAvailable
    rw [stream, empty, closed]
    rfl
  rw [streamChanged_starved starved, resumeStarved, if_pos starved, none, if_neg Bool.false_ne_true,
    if_pos ⟨stream, closed, empty⟩]

theorem lineAvailable_of_full {x : Session} (stream : x.source = .stream) (full : 32 ≤ x.streamBuffer.length) :
    lineAvailable x = true := by
  unfold lineAvailable
  rw [stream]
  exact Bool.or_eq_true_iff.2 (.inl (decide_eq_true full))

theorem lineAvailable_of_closed {x : Session} (stream : x.source = .stream) (closed : x.streamOpen = false)
    (holds : x.streamBuffer ≠ []) : lineAvailable x = true := by
  unfold lineAvailable
  rw [stream, closed]
  exact Bool.or_eq_true_iff.2 (.inr (decide_eq_true (List.length_pos_iff.2 holds)))

theorem settle_of_stream (stream : p.session.source = .stream) (notEnding : p.session.state ≠ .ending) : settle e p = p :=
  settle_of_calm (notCompleting_of_ne notEnding) (by simp [Session.wantsStep, stream])

theorem takesStream_iff {x : Session} :
    x.takesStream = true ↔ x.source = .stream ∧ x.streamOpen = true ∧ x.steps = true := by
  simp [Session.takesStream, and_assoc]

theorem takesStream_notEnding {x : Session} (takes : x.takesStream = true) : x.state ≠ .ending := fun ending => by
  simp [takesStream_iff, Session.steps, ending] at takes

end

section
variable {l : Link} {s : State} {count : Byte} {lines : List (BitVec 104)}

/-- The session with the lines appended that its stream buffer has room for (R16). -/
def withLines (lines : List (BitVec 104)) (x : Session) : Session :=
  { x with streamBuffer := x.streamBuffer ++ (lines.map trackLineOf).take (128 - x.streamBuffer.length) }

theorem exec_streamLines {p : Performance} (taken : Takes s l (.streamLines l count lines)) (holds : s.holds l = true)
    (takes : s.perf.session.takesStream = true) (low : 1 ≤ count.toNat) (high : count.toNat ≤ 16)
    (changes : settle s.env (streamChanged s.env { s.perf with session := withLines lines s.perf.session }) = p) :
    exec (.streamLines l count lines) s = .next (respond l (.streamLines l count lines) .ok
      [BitVec.ofNat 8 (min lines.length (128 - s.perf.session.streamBuffer.length)),
        BitVec.ofNat 8 (128 - p.session.streamBuffer.length)] none { s with perf := p }) := by
  refine exec_answered taken rfl ?_
  have inside : streamCountOf count = some count.toNat :=
    if_pos (by rw [inRange, decide_eq_true low, decide_eq_true high]; rfl)
  unfold runStreamLines
  rw [require_pass holds, require_pass takes, inside, requireValue_some, ← changes]
  rfl

theorem exec_streamClose {p : Performance} (taken : Takes s l (.streamClose l)) (holds : s.holds l = true)
    (takes : s.perf.session.takesStream = true)
    (changes : settle s.env (streamChanged s.env
      { s.perf with session := { s.perf.session with streamOpen := false } }) = p) :
    exec (.streamClose l) s = .next (respond l (.streamClose l) .ok [] none { s with perf := p }) := by
  have ran : runStreamClose l s = accept
      (fun e p => streamChanged e (onSession (fun s => { s with streamOpen := false }) p)) s := by
    unfold runStreamClose
    rw [require_pass holds, require_pass takes]
  exact exec_accepted taken rfl ran changes

end

/-- A STARVED stream session with a line available reads its oldest line where nothing is due, and whatever is due launches first. -/
theorem starvedStream_resumes {s : State} {x : Session} {line : TrackLine} {rest : List TrackLine} (starved : x.state = .starved)
    (stream : x.source = .stream) (lines : x.streamBuffer = line :: rest)
    (available : lineAvailable x = true)
    (same : x.pt = s.perf.session.pt ∧ x.tempo = s.perf.session.tempo ∧ x.rollPosition = s.perf.session.rollPosition
      ∧ x.frameIndex = s.perf.session.frameIndex ∧ x.newFrame = s.perf.session.newFrame) (noneDue : noneDue s.perf) :
    let p := settle s.env (resumeStarved s.env { s.perf with session := x })
    resumesWith s (s.perf.detector.streamLine s.map s.perf.session.rollPosition line) p
      ∧ (p.session.state = .playing → p.session.streamBuffer = rest ∧ p.session.streamOpen = x.streamOpen) := by
  intro p
  have nothingDue : Machine.noneDue { s.perf with session := x } := fun y queued => same.1 ▸ noneDue y queued
  have taken := consumePlaying_stream (e := s.env)
    (p := onSession (fun s => { s with state := .playing }) { s.perf with session := x }) stream lines
  have read := lineRead (e := s.env) (at_ := s.perf.now) (sensor := false)
    (out := s.perf.detector.streamLine s.map s.perf.session.rollPosition line)
    (p := { s.perf with session := { x with state := .playing, streamBuffer := rest } }) rfl
  have resumed : p = settle s.env (continuePlaying s.perf.now (playedLine s.env
      (s.perf.detector.streamLine s.map s.perf.session.rollPosition line) false
      { s.perf with session := { x with state := .playing, streamBuffer := rest } })) := by
    rw [← same.2.2.1]
    exact congrArg (settle s.env) (resumeStarved_reads starved available nothingDue taken)
  rw [← resumed] at read
  refine ⟨read.resumesWith rfl same, fun plays => ?_⟩
  obtain ⟨_, _, _, _, steps⟩ := forwardStep_same s.perf.now (beginInterval s.perf.now
    (advancePosition { x with state := .playing, streamBuffer := rest }))
  rw [(read.playing plays).1]
  dsimp only
  rw [steps]
  exact ⟨rfl, rfl⟩

/-- Settles O20: what STREAM-LINES and STREAM-CLOSE set off by the state of the session. -/
theorem streamLinesAndClose : Obligations.StreamLinesAndClose := by
  refine ⟨fun l count lines s taken holds takes low high => ?lines, fun l s taken holds takes => ?close⟩
  case lines =>
    intro held now
    obtain ⟨stream, opened, -⟩ := takesStream_iff.1 takes
    refine ⟨fun quiet => ?nothing, fun starved full => ?resumes⟩
    case nothing =>
      refine exec_streamLines taken holds takes low high ?_
      have unchanged : streamChanged s.env { s.perf with session := withLines lines s.perf.session }
          = { s.perf with session := withLines lines s.perf.session } := by
        have calm : ∀ {x : SessionState}, s.perf.session.state = x → x ≠ .preparing → x ≠ .starved →
            streamChanged s.env { s.perf with session := withLines lines s.perf.session }
              = { s.perf with session := withLines lines s.perf.session } :=
          fun state other other' => streamChanged_of_calm (state.trans_ne other) (state.trans_ne other')
        rcases quiet with state | state | state | ⟨state, short⟩ | ⟨state, short⟩
        · exact calm state nofun nofun
        · exact calm state nofun nofun
        · exact calm state nofun nofun
        · exact streamChanged_preparing state opened short
        · exact streamChanged_short state stream opened short
      rw [unchanged]
      exact settle_of_stream stream (takesStream_notEnding takes)
    case resumes =>
      have starves : (withLines lines s.perf.session).state = .starved := starved
      have available : lineAvailable (withLines lines s.perf.session) = true := lineAvailable_of_full stream full
      obtain ⟨resumed, nothing⟩ := resumeStarved_resumes (e := s.env)
        (p := { s.perf with session := withLines lines s.perf.session }) starves available
      refine ⟨_, exec_streamLines taken holds takes low high
        (congrArg _ (streamChanged_starved (p := { s.perf with session := withLines lines s.perf.session }) starves)),
        resumed, nothing, fun noneDue line rest lines => ?_⟩
      obtain ⟨resumes, plays⟩ := starvedStream_resumes starves stream lines available ⟨rfl, rfl, rfl, rfl, rfl⟩ noneDue
      exact ⟨resumes, fun playing => (plays playing).1⟩
  case close =>
    obtain ⟨stream, -, -⟩ := takesStream_iff.1 takes
    refine ⟨fun quiet => ?nothing, fun starved empty => ?drains, fun line rest starved lines => ?resumes⟩
    case nothing =>
      refine exec_streamClose taken holds takes ?_
      have unchanged : streamChanged s.env { s.perf with session := { s.perf.session with streamOpen := false } }
          = { s.perf with session := { s.perf.session with streamOpen := false } } := by
        refine streamChanged_of_calm (fun other => ?_) (fun other => ?_) <;>
        · replace other : s.perf.session.state = _ := other
          simp [other] at quiet
      rw [unchanged]
      exact settle_of_stream stream fun ending => takesStream_notEnding takes ending
    case drains =>
      exact ⟨_, exec_streamClose taken holds takes (congrArg _ (streamChanged_drains
        (p := { s.perf with session := { s.perf.session with streamOpen := false } }) starved stream rfl empty)),
        settle_drainSession (p := { s.perf with session := { s.perf.session with streamOpen := false } }) stream⟩
    case resumes =>
      have available : lineAvailable { s.perf.session with streamOpen := false } = true :=
        lineAvailable_of_closed stream rfl (lines.trans_ne nofun)
      obtain ⟨resumed, nothing⟩ := resumeStarved_resumes (e := s.env)
        (p := { s.perf with session := { s.perf.session with streamOpen := false } }) starved available
      exact ⟨_, exec_streamClose taken holds takes (congrArg _ (streamChanged_starved
          (p := { s.perf with session := { s.perf.session with streamOpen := false } }) starved)),
        resumed, nothing, fun noneDue => starvedStream_resumes (x := { s.perf.session with streamOpen := false })
          starved stream lines available ⟨rfl, rfl, rfl, rfl, rfl⟩ noneDue⟩

end Sys2Proof.Machine
end

section
/-! PROOFS. Pre-roll: of a stream (O21), and of the sensor's lines with the threading before it (O44). -/

namespace Sys2Proof.Machine

/-! ### Lines read while the clock stands (R7, R8) -/

section
variable {e : Env} {ref : Reference} {p : Performance}

/-- A roll event that is queued while the clock stands is handed over to nobody. -/
theorem queueEvent_standing (ev : HoleEvent) (stands : p.session.state.clockRuns = false) :
    (queueEvent e ref ev p).expression = p.expression ∧ (queueEvent e ref ev p).session = p.session := by
  unfold queueEvent
  split
  · exact ⟨rfl, rfl⟩
  · split
    · rw [insertEntry_stays (.inl stands)]
      exact ⟨rfl, rfl⟩
    · unfold refuseRoll refusedEffect
      split <;> exact ⟨rfl, rfl⟩

theorem queueEvents_standing (l : List HoleEvent) (stands : p.session.state.clockRuns = false) :
    (queueEvents e ref l p).expression = p.expression ∧ (queueEvents e ref l p).session = p.session := by
  unfold queueEvents
  induction l generalizing p with
  | nil => exact ⟨rfl, rfl⟩
  | cons ev l ih =>
    obtain ⟨expression', session'⟩ := queueEvent_standing (e := e) (ref := ref) ev stands
    obtain ⟨expression, session⟩ := ih (p := queueEvent e ref ev p) (by rwa [session'])
    exact ⟨expression.trans expression', session.trans session'⟩

theorem preRollLines_frame (l : List (TrackLine × Nat)) (stands : p.session.state.clockRuns = false) :
    (l.foldl (preRollLine e) p).now = p.now ∧ (l.foldl (preRollLine e) p).expression = p.expression := by
  induction l generalizing p with
  | nil => exact ⟨rfl, rfl⟩
  | cons x l ih =>
    have now' : (preRollLine e p x).now = p.now := (queueEvents_frame _).1
    obtain ⟨expression', session'⟩ : (preRollLine e p x).expression = p.expression ∧ (preRollLine e p x).session = p.session :=
      queueEvents_standing (p := { p with detector := _ }) _ stands
    obtain ⟨now, expression⟩ := ih (p := preRollLine e p x) (by rwa [session'])
    exact ⟨now.trans now', expression.trans expression'⟩

end

/-! ### The pre-roll of a stream (R8) -/

section
variable {s : State} {x : Session} {lines rest : List TrackLine}

/-- The session a stream leaves CUED once it has read some lines from position 0 onward. -/
def cuedAfter (x : Session) (lines rest : List TrackLine) : Session :=
  { x with
    state := .cued
    streamBuffer := rest
    rollPosition := lines.length
    lastPosition := if lines = [] then x.lastPosition else lines.length - 1 }

/-- The performance a stream's pre-roll leaves: the lines read one after another, and the session CUED. -/
def cuedStream (s : State) (x : Session) (lines rest : List TrackLine) : Performance :=
  { preRolled s lines with session := cuedAfter x lines rest }

/-- What a PREPARING stream consumes in pre-roll, with what follows it. -/
theorem consumeStream_cues (stream : x.source = .stream) (preparing : x.state = .preparing) (start : x.rollPosition = 0)
    (stands : standsAs x s.perf.session) (holds : x.streamBuffer = lines ++ rest) (few : lines.length ≤ 128) :
    onSession (fun s => { s with state := .cued }) (consumeStream s.env lines.length { s.perf with session := x })
      = cuedStream s x lines rest := by
  have few' : x.rollPosition + lines.length ≤ 4194303 := by omega
  have consumed := consumeStream_eq s.env lines rest (p := { s.perf with session := x }) stream holds
    (by show x.state.clockRuns = false; rw [preparing]; rfl) few'
  rw [(preRollLines_session s.env _ stands).1] at consumed
  simp only [start, Nat.zero_add] at consumed
  rw [consumed]
  rfl

theorem streamPreRoll_full (stream : x.source = .stream) (preparing : x.state = .preparing) (start : x.rollPosition = 0)
    (stands : standsAs x s.perf.session) (far : s.map.tracker.soundingDistance ≤ 96)
    (full : s.map.tracker.soundingDistance + 32 ≤ x.streamBuffer.length) :
    streamPreRoll s.env { s.perf with session := x }
      = cuedStream s x (x.streamBuffer.take s.map.tracker.soundingDistance) (x.streamBuffer.drop s.map.tracker.soundingDistance) := by
  have taken : (x.streamBuffer.take s.map.tracker.soundingDistance).length = s.map.tracker.soundingDistance := by
    rw [List.length_take]
    omega
  have cues := consumeStream_cues stream preparing start stands (List.take_append_drop _ _).symm (taken.trans_le (by omega))
  rw [taken] at cues
  rw [← cues, streamPreRoll, if_pos ⟨preparing, stream⟩]
  exact if_pos full

theorem streamPreRoll_closed (stream : x.source = .stream) (preparing : x.state = .preparing) (start : x.rollPosition = 0)
    (stands : standsAs x s.perf.session) (closed : x.streamOpen = false) (far : s.map.tracker.soundingDistance ≤ 96)
    (short : x.streamBuffer.length < s.map.tracker.soundingDistance + 32) :
    streamPreRoll s.env { s.perf with session := x } = cuedStream s x x.streamBuffer [] := by
  have cues := consumeStream_cues (s := s) stream preparing start stands (List.append_nil _).symm (by omega)
  rw [← cues, streamPreRoll, if_pos ⟨preparing, stream⟩]
  exact (if_neg (Nat.not_le.2 short)).trans (if_pos closed)

/-- A stream that is CUED by its pre-roll is left as it is. -/
theorem settle_cuedStream {p : Performance} (stream : x.source = .stream)
    (cued : streamPreRoll s.env p = cuedStream s x lines rest) :
    settle s.env (streamChanged s.env p) = cuedStream s x lines rest := by
  rw [streamChanged, cued, resumeStarved_of_other (nofun : SessionState.cued ≠ .starved)]
  exact settle_of_stream stream (nofun : SessionState.cued ≠ .ending)

end

/-- Settles O21: the lines a PREPARING stream session consumes are read one after another (`consumeStream_eq`). -/
theorem streamPreRoll_cues : Obligations.StreamPreRoll := by
  intro l s holds takes preparing start d low far
  obtain ⟨stream, -, -⟩ := takesStream_iff.1 takes
  have stands : s.perf.session.state.clockRuns = false := by rw [preparing]; rfl
  refine ⟨fun count lines taken least most => ?lines, fun taken short => ?close⟩
  case lines =>
    intro now _ full
    have cued := settle_cuedStream stream (streamPreRoll_full (s := s) (x := withLines lines s.perf.session) stream preparing start
      ⟨stands, stands, rfl, rfl⟩ far full)
    have answered := exec_streamLines taken holds takes least most cued
    have left : (cuedStream s (withLines lines s.perf.session) (now.take d) (now.drop d)).session.streamBuffer.length
        = now.length - d := List.length_drop
    obtain ⟨clock, expression⟩ := preRollLines_frame (e := s.env) ((now.take d).zipIdx) stands
    have many : (now.take d).length = d := by
      rw [List.length_take]
      omega
    have some : now.take d ≠ [] := fun none => by
      rw [none] at many
      have : d = 0 := many.symm
      omega
    refine ⟨cuedStream s (withLines lines s.perf.session) (now.take d) (now.drop d), ?_, ?_, clock, expression, rfl, rfl, rfl⟩
    · rw [← left]
      exact answered
    · show cuedAfter _ _ _ = _
      rw [cuedAfter, if_neg some, many]
      rfl
  case close =>
    have cued := settle_cuedStream (x := { s.perf.session with streamOpen := false }) stream (streamPreRoll_closed
      stream preparing start ⟨stands, stands, rfl, rfl⟩ rfl far short)
    exact ⟨_, exec_streamClose taken holds takes cued, rfl, rfl, rfl, rfl, rfl, rfl, rfl, rfl⟩

end Sys2Proof.Machine
end

section
/-! PROOFS. The images of the sensor: strays, steps answered, and the end of a starvation (O43). -/

namespace Sys2Proof.Machine

section
variable {s : State} {samples : SensorLine}

theorem exec_scanImage (running : s.running = true) : exec (.scanImage samples) s
    = .next (settled s (imageArrived s.env { s.perf with session := takeImage samples s.perf.session })) := by
  have power : s.power.state = .running := of_decide_eq_true running
  show execScanImage samples s = _
  unfold execScanImage
  rw [power]
  exact congrArg _ (changePerf_running running)

/-- An image that answers a step joins the buffer, and a stray is counted. -/
theorem takeImage_stray {x : Session} (none : x.stepTimer = none) :
    takeImage samples x = { x with scanStray := x.scanStray + 1 } := by
  unfold takeImage
  rw [if_neg (by simp [none])]

theorem takeImage_step {x : Session} (some : x.stepTimer.isSome = true) :
    takeImage samples x = { x with sensorBuffer := x.sensorBuffer ++ [samples], stepTimer := none } := if_pos some

/-- An image changes the step, the stray count and the buffer, which it joins or not. -/
theorem takeImage_same (x : Session) : ∃ stray timer, takeImage samples x
    = { x with
        sensorBuffer := if x.stepTimer.isSome then x.sensorBuffer ++ [samples] else x.sensorBuffer
        scanStray := stray
        stepTimer := timer } := by
  unfold takeImage
  split
  · exact ⟨_, _, rfl⟩
  · exact ⟨_, _, rfl⟩

/-- The image that a session does not wait for sets nothing off. -/
theorem imageArrived_of_calm {e : Env} {p : Performance} (calm : ¬ (p.session.sensorBuffer ≠ [] ∧
      ((p.session.state = .starved ∧ p.session.source = .sensor)
        ∨ (p.session.state = .preparing ∧ p.session.awaitingImage = true)))) : imageArrived e p = p := by
  unfold imageArrived
  split
  · next waits => exact absurd ⟨waits.2.2, .inr ⟨waits.1, waits.2.1⟩⟩ calm
  · split
    · next source =>
      by_cases starved : p.session.state = .starved
      · have empty : p.session.sensorBuffer = [] := Classical.not_not.1 fun holds => calm ⟨holds, .inl ⟨starved, source⟩⟩
        have none : lineAvailable p.session = false := by
          unfold lineAvailable
          rw [source, empty]
          rfl
        rw [resumeStarved, if_pos starved, none, if_neg Bool.false_ne_true, if_neg (by simp [source])]
      · exact resumeStarved_of_other starved
    · rfl

theorem imageArrived_starved {e : Env} {p : Performance} (starved : p.session.state = .starved)
    (source : p.session.source = .sensor) : imageArrived e p = resumeStarved e p := by
  unfold imageArrived
  rw [if_neg (by simp [starved]), if_pos source]

end

/-- A STARVED sensor session with a line reads it where nothing is due, and whatever is due launches first. -/
theorem starvedSensor_resumes {s : State} {x : Session} {line : SensorLine} {rest : List SensorLine} (starved : x.state = .starved)
    (sensor : x.source = .sensor) (lines : x.sensorBuffer = line :: rest)
    (same : x.pt = s.perf.session.pt ∧ x.tempo = s.perf.session.tempo ∧ x.rollPosition = s.perf.session.rollPosition
      ∧ x.frameIndex = s.perf.session.frameIndex ∧ x.newFrame = s.perf.session.newFrame) (noneDue : noneDue s.perf) :
    let p := settle s.env (resumeStarved s.env { s.perf with session := x })
    resumesWith s (s.perf.detector.sensorLine s.map s.perf.session.rollPosition line) p
      ∧ (p.session.state = .playing → p.session.sensorBuffer = rest)
      ∧ (24 ≤ p.detector.badRun ↔ p.session.state = .faulted)
      ∧ (p.session.state = .faulted → p.session.faultCause = .trackLost ∧ p.queue = s.perf.queue) := by
  intro p
  have available : lineAvailable x = true := by
    unfold lineAvailable
    rw [sensor, lines]
    rfl
  have nothingDue : Machine.noneDue { s.perf with session := x } := fun y queued => same.1 ▸ noneDue y queued
  have taken := consumePlaying_sensor (e := s.env)
    (p := onSession (fun s => { s with state := .playing }) { s.perf with session := x }) sensor lines
  have position : x.rollPosition = s.perf.session.rollPosition := same.2.2.1
  have resumed := congrArg (settle s.env) (resumeStarved_reads (e := s.env) starved available nothingDue taken)
  obtain ⟨out, reads⟩ : ∃ out, s.perf.detector.sensorLine s.map s.perf.session.rollPosition line = out := ⟨_, rfl⟩
  have reads' : s.perf.detector.sensorLine s.env.map x.rollPosition line = out := position ▸ reads
  have read := lineRead (e := s.env) (at_ := s.perf.now) (sensor := true) (out := out)
    (p := { s.perf with session := { x with state := .playing, sensorBuffer := rest } }) rfl
  replace resumed : p = settle s.env (continuePlaying s.perf.now (playedLine s.env out true
      { s.perf with session := { x with state := .playing, sensorBuffer := rest } })) := by
    rw [← reads']
    exact resumed
  rw [← resumed] at read
  rw [reads]
  refine ⟨read.resumesWith rfl same, fun plays => ?_, ?_, read.fault⟩
  · obtain ⟨_, _, _, _, steps⟩ := forwardStep_same s.perf.now (beginInterval s.perf.now
      (advancePosition { x with state := .playing, sensorBuffer := rest }))
    rw [(read.playing plays).1]
    dsimp only
    rw [steps]
    rfl
  · rw [read.detector, ← read.lost_iff, Bool.true_and, Detector.lost, decide_eq_true_iff]

/-- What a step whose image does not come leaves (R15). -/
theorem exec_lineTimerExpiry {s : State} {t : Nat} (running : s.running = true) (timer : s.perf.session.stepTimer = some t) :
    exec .lineTimerExpiry s = .next { s with perf := faultSession s.env .sensorFault (advanceTo t s.perf) } := by
  rw [exec_moment (c := .lineTimerExpiry) (moment := fun _ p => p.session.stepTimer)
    (f := fun e _ => faultSession e .sensorFault) running rfl timer, settled, settle_of_faulted (faultSession_state ..)]

/-- Settles O43: an image that nothing waits for changes the buffer alone, and the STARVED session it feeds reads it. -/
theorem scanImages : Obligations.ScanImages := by
  intro samples s x got waits
  obtain ⟨stray, timer, takes⟩ := takeImage_same (samples := samples) s.perf.session
  refine ⟨fun running => ⟨fun calm none => ?_, fun calm some => ?_, fun line rest starved sensor lines => ?_,
    fun t timer later => ?_⟩, fun power none => ?_, fun held => ?_⟩
  · have quiet : imageArrived s.env { s.perf with session := takeImage samples s.perf.session }
        = { s.perf with session := takeImage samples s.perf.session } := by
      refine imageArrived_of_calm ?_
      rw [takes]
      exact calm
    rw [exec_scanImage running, quiet, takeImage_stray none]
  · have quiet : imageArrived s.env { s.perf with session := takeImage samples s.perf.session }
        = { s.perf with session := takeImage samples s.perf.session } := by
      refine imageArrived_of_calm ?_
      rw [takes]
      exact calm
    rw [exec_scanImage running, quiet, takeImage_step some]
  · obtain ⟨y, taken⟩ : ∃ y, takeImage samples s.perf.session = y := ⟨_, rfl⟩
    have state : y.state = .starved := by rw [← taken, takes]; exact starved
    have source : y.source = .sensor := by rw [← taken, takes]; exact sensor
    have buffer : y.sensorBuffer = line :: rest := by rw [← taken, takes]; exact lines
    have same : y.pt = s.perf.session.pt ∧ y.tempo = s.perf.session.tempo ∧ y.rollPosition = s.perf.session.rollPosition
        ∧ y.frameIndex = s.perf.session.frameIndex ∧ y.newFrame = s.perf.session.newFrame := by
      rw [← taken, takes]
      exact ⟨rfl, rfl, rfl, rfl, rfl⟩
    have available : lineAvailable y = true := by
      unfold lineAvailable
      rw [source, buffer]
      rfl
    obtain ⟨resumed, nothing⟩ := resumeStarved_resumes (e := s.env) (p := { s.perf with session := y }) state available
    refine ⟨settle s.env (resumeStarved s.env { s.perf with session := y }), ?_, resumed, nothing,
      starvedSensor_resumes state source buffer same⟩
    rw [exec_scanImage running, taken, imageArrived_starved state source]
    rfl
  · have buffer : (advanceTo t s.perf).session.sensorBuffer = x.sensorBuffer := by rw [advanceTo_session]
    have rewind : (advanceTo t s.perf).session.rewindCount = x.rewindCount := by rw [advanceTo_session]
    have detector : (advanceTo t s.perf).detector = s.perf.detector := advance_detector ..
    have expression : (advanceTo t s.perf).expression = s.perf.expression := advance_expression ..
    refine ⟨_, exec_lineTimerExpiry running timer, ?_⟩
    simp [faultSession, advanceTo_now later, advanceTo_queue, detector, expression, buffer, rewind]
  · show execScanImage samples s = _
    unfold execScanImage
    rcases power with power | power
    · rw [power, ← takeImage_stray none]
      rfl
    · rw [power, ← takeImage_stray none]
      rfl
  · show execScanImage samples s = _
    unfold execScanImage
    rw [held]

end Sys2Proof.Machine
end

section
/-! PROOFS. Threading and the pre-roll of the sensor's lines (O44). -/

namespace Sys2Proof.Machine

section
variable {e : Env} {at_ : Nat} {p : Performance} {line : SensorLine} {rest : List SensorLine}

/-- What follows a change steps the roll, and changes nothing else of a session that is not in ENDING. -/
theorem settle_steps (notEnding : p.session.state ≠ .ending) : ∃ direction pulses timer rewind, settle e p
    = { p with session := { p.session with
        direction := direction, stepPulses := pulses, stepTimer := timer, rewindCount := rewind } } := by
  obtain ⟨direction, pulses, timer, rewind, steps⟩ := forwardStep_same p.now p.session
  exact ⟨direction, pulses, timer, rewind, by rw [settle_of_left (notCompleting_of_ne notEnding), onSession, steps]⟩

theorem prepareLine_none (empty : p.session.sensorBuffer = []) :
    prepareLine e at_ p = { p with session := { p.session with intervalEnd := none, awaitingImage := true } } := by
  unfold prepareLine
  rw [empty]
  rfl

/-! ### Threading (R6, R32) -/

/-- The performance with a line taken in threading, before it faults or goes on. -/
def threaded (d : Detector) (rest : List SensorLine) (p : Performance) : Performance :=
  { p with
    detector := d
    session := { p.session with
      sensorBuffer := rest
      threadingLines := p.session.threadingLines + 1
      threadingStable := decide (32 ≤ d.goodRun) } }

/-- What a line taken in threading leaves. -/
structure Threaded (at_ : Nat) (d : Detector) (rest : List SensorLine) (p r : Performance) : Prop where
  now : r.now = p.now
  expression : r.expression = p.expression
  detector : r.detector = d
  queue : r.queue = p.queue
  buffer : r.session.sensorBuffer = rest
  pt : r.session.pt = p.session.pt
  lines : r.session.threadingLines = p.session.threadingLines + 1
  stable : r.session.threadingStable = decide (32 ≤ d.goodRun)
  position : r.session.rollPosition = p.session.rollPosition
  last : r.session.lastPosition = p.session.lastPosition
  goesOn : decide (32 ≤ d.goodRun) = true ∨ p.session.threadingLines + 1 < 4000 →
    r.session.state = .preparing ∧ r.session.intervalEnd = some (at_ + 2500) ∧ r.session.awaitingImage = false
  faults : decide (32 ≤ d.goodRun) = false → 4000 ≤ p.session.threadingLines + 1 →
    r.session.state = .faulted ∧ r.session.faultCause = .threadFault

section
variable {d : Detector}

theorem consumeThreading_eq (reads : p.detector.trackEdges e.map.tracker line = d) : consumeThreading e line rest p
    = if decide (32 ≤ d.goodRun) = false ∧ 4000 ≤ p.session.threadingLines + 1
      then faultSession e .threadFault (threaded d rest p) else threaded d rest p := by
  unfold consumeThreading
  rw [reads]
  refine if_congr ?_ rfl rfl
  rw [Bool.and_eq_true, Bool.not_eq_true', decide_eq_true_iff]
  rfl

theorem prepareLine_threading (lines : p.session.sensorBuffer = line :: rest) (loose : p.session.threadingStable = false)
    {q : Performance} (consumed : consumeThreading e line rest p = q) :
    prepareLine e at_ p = if q.session.state = .preparing then onSession (beginThreading at_) q else q := by
  unfold prepareLine
  rw [lines]
  dsimp only
  simp only [loose, Bool.false_eq_true, if_false, consumed]

/-- A line taken in threading goes on with the next interval, or it is the one that brings THREAD-FAULT. -/
theorem threaded_settled (preparing : p.session.state = .preparing) (lines : p.session.sensorBuffer = line :: rest)
    (loose : p.session.threadingStable = false) (reads : p.detector.trackEdges e.map.tracker line = d) :
    Threaded at_ d rest p (settle e (prepareLine e at_ p)) := by
  by_cases fails : decide (32 ≤ d.goodRun) = false ∧ 4000 ≤ p.session.threadingLines + 1
  · have consumed := (consumeThreading_eq (rest := rest) reads).trans (if_pos fails)
    rw [prepareLine_threading lines loose consumed, if_neg (by rw [faultSession_state]; decide),
      settle_of_faulted (faultSession_state ..)]
    have queue : (faultSession e .threadFault (threaded d rest p)).queue = p.queue := by simp [faultSession, threaded]
    refine ⟨?_, ?_, ?_, queue, ?_, ?_, ?_, ?_, ?_, ?_, fun on => ?_, fun _ _ => ⟨rfl, rfl⟩⟩
    case refine_10 =>
      rcases on with stable | few
      · exact absurd (fails.1.symm.trans stable) Bool.false_ne_true
      · exact absurd fails.2 (Nat.not_le.2 few)
    all_goals simp [faultSession, threaded]
  · have consumed := (consumeThreading_eq (rest := rest) reads).trans (if_neg fails)
    have state : (threaded d rest p).session.state = .preparing := preparing
    obtain ⟨_, _, _, _, settled⟩ := settle_steps (e := e) (p := onSession (beginThreading at_) (threaded d rest p))
      (by show (threaded d rest p).session.state ≠ _; rw [state]; decide)
    rw [prepareLine_threading lines loose consumed, if_pos state, settled]
    exact ⟨rfl, rfl, rfl, rfl, rfl, rfl, rfl, rfl, rfl, rfl, fun _ => ⟨preparing, rfl, rfl⟩,
      fun bad many => absurd ⟨bad, many⟩ fails⟩

end

/-! ### The sensor's pre-roll (R7, R33) -/

theorem prepareLine_preRoll (source : p.session.source = .sensor) (lines : p.session.sensorBuffer = line :: rest)
    (stable : p.session.threadingStable = true) {q : Performance}
    (read : cueAtDistance e (afterLine e (preRollReference e) (p.detector.sensorLine e.map p.session.rollPosition line) true
      (onSession (fun s => { s with sensorBuffer := rest }) p)) = q) :
    prepareLine e at_ p = if q.session.state = .preparing then onSession (beginThreading at_) q else q := by
  have consumed : consume e (preRollReference e) p
      = some (afterLine e (preRollReference e) (p.detector.sensorLine e.map p.session.rollPosition line) true
        (onSession (fun s => { s with sensorBuffer := rest }) p)) := by
    unfold consume
    rw [source]
    dsimp only
    rw [lines]
  unfold prepareLine
  rw [lines]
  dsimp only
  rw [if_pos stable, if_pos stable, consumed, Option.getD_some, read]

/-- The performance with a line of pre-roll read, before the session is CUED or goes on. -/
def preRolledLine (e : Env) (rest : List SensorLine) (out : Detector × List HoleEvent) (p : Performance) : Performance :=
  queueEvents e (preRollReference e) out.2
    { p with detector := out.1, session := advancePosition { p.session with sensorBuffer := rest } }

/-- What a line of pre-roll read by the detector leaves. -/
structure PreRolled (e : Env) (at_ : Nat) (rest : List SensorLine) (out : Detector × List HoleEvent) (p r : Performance) : Prop where
  now : r.now = p.now
  expression : r.expression = p.expression
  detector : r.detector = out.1
  buffer : r.session.sensorBuffer = rest
  pt : r.session.pt = p.session.pt
  last : r.session.lastPosition = p.session.rollPosition
  position : r.session.rollPosition = min positionMax (p.session.rollPosition + 1)
  read : out.1.lost = false → r.queue = (preRolledLine e rest out p).queue ∧ r.instrument = (preRolledLine e rest out p).instrument
  lost : out.1.lost = true → r.session.state = .faulted ∧ r.session.faultCause = .trackLost ∧ r.queue = p.queue
  cues : out.1.lost = false → e.map.tracker.soundingDistance ≤ min positionMax (p.session.rollPosition + 1) →
    r.session.state = .cued ∧ r.session.intervalEnd = none
  goesOn : out.1.lost = false → min positionMax (p.session.rollPosition + 1) < e.map.tracker.soundingDistance →
    r.session.state = .preparing ∧ r.session.intervalEnd = some (at_ + 2500)

theorem preRolled_settled {out : Detector × List HoleEvent} (preparing : p.session.state = .preparing)
    (source : p.session.source = .sensor)
    (lines : p.session.sensorBuffer = line :: rest) (stable : p.session.threadingStable = true)
    (reads : p.detector.sensorLine e.map p.session.rollPosition line = out) :
    PreRolled e at_ rest out p (settle e (prepareLine e at_ p)) := by
  have prepared : ∀ q : Performance, cueAtDistance e (afterLine e (preRollReference e) out true
      (onSession (fun s => { s with sensorBuffer := rest }) p)) = q →
      prepareLine e at_ p = if q.session.state = .preparing then onSession (beginThreading at_) q else q :=
    fun q read => prepareLine_preRoll source lines stable (by rw [reads]; exact read)
  cases lost : out.1.lost with
  | true =>
    obtain ⟨q, shape⟩ : ∃ q, faultSession e .trackLost
      { p with detector := out.1, session := advancePosition { p.session with sensorBuffer := rest } } = q := ⟨_, rfl⟩
    have state : q.session.state = .faulted := by rw [← shape, faultSession_state]
    have faults : afterLine e (preRollReference e) out true (onSession (fun s => { s with sensorBuffer := rest }) p) = q :=
      (if_pos (by rw [lost]; rfl)).trans shape
    have same : cueAtDistance e q = q := if_neg fun both => absurd (state.symm.trans both.1) (by decide)
    rw [prepared q (by rw [faults, same]), if_neg (by rw [state]; decide), settle_of_faulted state]
    have queue : q.queue = p.queue := by rw [← shape]; simp [faultSession]
    have cause : q.session.faultCause = .trackLost := by rw [← shape]; rfl
    refine ⟨?_, ?_, ?_, ?_, ?_, ?_, ?_, fun kept => (nomatch lost.symm.trans kept),
      fun _ => ⟨state, cause, queue⟩, fun kept => (nomatch lost.symm.trans kept), fun kept => (nomatch lost.symm.trans kept)⟩ <;>
    · rw [← shape]
      simp [faultSession, advancePosition]
  | false =>
    have stands : (advancePosition { p.session with sensorBuffer := rest }).state.clockRuns = false := by
      show p.session.state.clockRuns = false
      rw [preparing]
      rfl
    obtain ⟨expression, session⟩ := queueEvents_standing (e := e) (ref := preRollReference e)
      (p := { p with detector := out.1, session := advancePosition { p.session with sensorBuffer := rest } }) out.2 stands
    obtain ⟨now, detector⟩ := queueEvents_frame (e := e) (ref := preRollReference e)
      (p := { p with detector := out.1, session := advancePosition { p.session with sensorBuffer := rest } }) out.2
    obtain ⟨q, shape⟩ : ∃ q, preRolledLine e rest out p = q := ⟨_, rfl⟩
    have read : afterLine e (preRollReference e) out true (onSession (fun s => { s with sensorBuffer := rest }) p) = q :=
      (if_neg (by rw [lost]; decide)).trans shape
    rw [← preRolledLine, shape] at expression session now detector
    have state : q.session.state = .preparing := by rw [session]; exact preparing
    have position : q.session.rollPosition = min positionMax (p.session.rollPosition + 1) := by rw [session]; rfl
    by_cases there : e.map.tracker.soundingDistance ≤ min positionMax (p.session.rollPosition + 1)
    · have cued : cueAtDistance e q
          = onSession (fun s => { s with state := .cued, intervalEnd := none, awaitingImage := false }) q :=
        if_pos ⟨state, by rwa [position]⟩
      obtain ⟨_, _, _, _, settled⟩ := settle_steps (e := e)
        (p := onSession (fun s => { s with state := .cued, intervalEnd := none, awaitingImage := false }) q) nofun
      rw [prepared _ (by rw [read, cued]), if_neg nofun, settled]
      dsimp only [onSession]
      rw [session]
      exact ⟨now, expression, detector, rfl, rfl, rfl, rfl, fun _ => by rw [shape]; exact ⟨rfl, rfl⟩,
        fun gone => (nomatch lost.symm.trans gone), fun _ _ => ⟨rfl, rfl⟩,
        fun _ short => absurd there (Nat.not_le.2 short)⟩
    · have same : cueAtDistance e q = q := if_neg fun both => there (by rw [← position]; exact both.2)
      obtain ⟨_, _, _, _, settled⟩ := settle_steps (e := e) (p := onSession (beginThreading at_) q)
        (by show q.session.state ≠ _; rw [state]; decide)
      rw [prepared _ (by rw [read, same]), if_pos state, settled]
      dsimp only [onSession]
      rw [session]
      exact ⟨now, expression, detector, rfl, rfl, rfl, rfl, fun _ => by rw [shape]; exact ⟨rfl, rfl⟩,
        fun gone => (nomatch lost.symm.trans gone), fun _ far => absurd far there,
        fun _ _ => ⟨preparing, rfl⟩⟩

end

/-! ### The events that bring a line in PREPARING (R6, R7, R14) -/

section
variable {c : Instr} {at_ : Nat} {s : State}

/-- The event at the end of an interval in PREPARING, by whether its edges are stable. -/
def endsInterval (c : Instr) (at_ : Nat) (x : Session) : Prop :=
  x.intervalEnd = some at_ ∧ ((c = .threadingIntervalEnd ∧ x.threadingStable = false)
    ∨ (c = .preRollIntervalEnd ∧ x.threadingStable = true))

/-- The end of an interval in PREPARING: real time goes there, and the clock stands. -/
theorem exec_endsInterval (running : s.running = true) (preparing : s.perf.session.state = .preparing) (later : s.perf.now ≤ at_)
    (ends : endsInterval c at_ s.perf.session) :
    exec c s = .next (settled s (prepareLine s.env at_ { s.perf with now := at_ })) := by
  have stands : s.perf.session.state.clockRuns = false := by rw [preparing]; rfl
  have goes : advanceTo at_ s.perf = { s.perf with now := at_ } := by
    rw [advanceTo, advance_standing _ stands, Nat.add_sub_of_le later]
  have moment : ∀ preRoll, s.perf.session.threadingStable = preRoll → s.perf.session.preparingEnd preRoll = some at_ :=
    fun preRoll stable => (if_pos ⟨preparing, stable⟩).trans ends.1
  rw [← goes]
  rcases ends.2 with ⟨rfl, loose⟩ | ⟨rfl, stable⟩
  · exact exec_moment (c := .threadingIntervalEnd) (moment := fun _ p => p.session.preparingEnd false) (f := prepareLine) running rfl
      (moment _ loose)
  · exact exec_moment (c := .preRollIntervalEnd) (moment := fun _ p => p.session.preparingEnd true) (f := prepareLine) running rfl
      (moment _ stable)

/-- The image that the pacer waits for in PREPARING is consumed at once. -/
theorem exec_imageAwaited {line : SensorLine} (running : s.running = true) (preparing : s.perf.session.state = .preparing)
    (empty : s.perf.session.sensorBuffer = []) (awaits : s.perf.session.awaitingImage = true)
    (step : s.perf.session.stepTimer.isSome = true) :
    exec (.scanImage line) s = .next (settled s (prepareLine s.env s.perf.now
      { s.perf with session := { s.perf.session with sensorBuffer := [line], stepTimer := none } })) := by
  have arrives : imageArrived s.env { s.perf with session := { s.perf.session with sensorBuffer := [line], stepTimer := none } }
      = prepareLine s.env s.perf.now
        { s.perf with session := { s.perf.session with sensorBuffer := [line], stepTimer := none } } :=
    if_pos ⟨preparing, awaits, by show [line] ≠ []; simp⟩
  rw [exec_scanImage running, takeImage_step step, empty, List.nil_append, arrives]

end

/-- Settles O44: a line that threading or the pre-roll takes goes on with the next interval, cues the session or faults it. -/
theorem threadingAndPreRoll : Obligations.ThreadingAndPreRoll := by
  intro c at_ line rest s running x preparing source later ends arrives
  refine ⟨fun reached empty => ?_, fun brings => ?_⟩
  · rw [exec_endsInterval running preparing later reached, prepareLine_none (p := { s.perf with now := at_ }) empty]
  · obtain ⟨buffer, timer, executed, lines⟩ : ∃ (y : List SensorLine) (timer : Option Nat),
        exec c s = .next (settled s (prepareLine s.env at_
          { s.perf with now := at_, session := { x with sensorBuffer := y, stepTimer := timer } })) ∧ y = line :: rest := by
      rcases brings with ⟨reached, lines⟩ | ⟨rfl, rfl, empty, awaits, step, rfl⟩
      · exact ⟨x.sensorBuffer, x.stepTimer, exec_endsInterval running preparing later reached, lines⟩
      · exact ⟨[line], none, exec_imageAwaited running preparing empty awaits step, rfl⟩
    obtain ⟨p, given⟩ : ∃ p : Performance,
        { s.perf with now := at_, session := { x with sensorBuffer := buffer, stepTimer := timer } } = p := ⟨_, rfl⟩
    rw [given] at executed
    have taken : p.session.sensorBuffer = line :: rest := by rw [← given]; exact lines
    have prepares : p.session.state = .preparing := by rw [← given]; exact preparing
    have sensor : p.session.source = .sensor := by rw [← given]; exact source
    refine ⟨settle s.env (prepareLine s.env at_ p), executed, ?_⟩
    cases stable : x.threadingStable with
    | false =>
      obtain ⟨d, reads⟩ : ∃ d, s.perf.detector.trackEdges s.map.tracker line = d := ⟨_, rfl⟩
      have threads := threaded_settled (e := s.env) (at_ := at_) prepares taken (by rw [← given]; exact stable)
        (d := d) (by rw [← given]; exact reads)
      rw [reads]
      subst given
      exact ⟨threads.now, threads.buffer, threads.pt, threads.expression,
        fun _ => ⟨threads.detector, threads.queue, threads.lines, threads.stable, threads.position, threads.last,
          threads.goesOn, threads.faults⟩, nofun⟩
    | true =>
      obtain ⟨out, reads⟩ : ∃ out, s.perf.detector.sensorLine s.map x.rollPosition line = out := ⟨_, rfl⟩
      have rolls := preRolled_settled (e := s.env) (at_ := at_) (out := out) prepares sensor taken
        (by rw [← given]; exact stable) (by rw [← given]; exact reads)
      have lost_iff : out.1.lost = true ↔ 24 ≤ out.1.badRun := decide_eq_true_iff
      have kept_iff : out.1.lost = false ↔ out.1.badRun < 24 := by
        rw [← Nat.not_le, ← lost_iff, Bool.not_eq_true]
      rw [reads]
      subst given
      refine ⟨rolls.now, rolls.buffer, rolls.pt, rolls.expression, nofun, fun _ => ⟨rolls.detector, rolls.last, rolls.position,
        fun kept => ⟨advancePosition { x with sensorBuffer := rest, stepTimer := timer }, preparing, rfl, rfl, ?_⟩,
        fun lost => rolls.lost (lost_iff.2 lost), fun kept => rolls.cues (kept_iff.2 kept),
        fun kept => rolls.goesOn (kept_iff.2 kept)⟩⟩
      exact rolls.read (kept_iff.2 kept)

end Sys2Proof.Machine
end

section
/-! PROOFS. The reverse steps of REWINDING and the ending limit (O46). -/

namespace Sys2Proof.Machine

section
variable {s : State} {t start : Nat}

theorem exec_reverseStep (running : s.running = true) (rewinding : s.perf.session.state = .rewinding)
    (moment : s.perf.session.reverseStepAt = some t) (later : s.perf.now ≤ t) :
    exec .reverseStep s
      = .next { s with perf := { s.perf with now := t, session := reverseOne t s.perf.session } } := by
  have stands : s.perf.session.state.clockRuns = false := by rw [rewinding]; rfl
  have goes : advanceTo t s.perf = { s.perf with now := t } := by
    rw [advanceTo, advance_standing _ stands, Nat.add_sub_of_le later]
  have reached : s.perf.session.rewindingAt = some t := (if_pos rewinding).trans moment
  rw [exec_moment (c := .reverseStep) (moment := fun _ p => p.session.rewindingAt)
    (f := fun _ t => onSession (reverseOne t)) running rfl reached, settled, settle_of_ended, goes]
  · rfl
  · rw [goes]
    show (reverseOne t s.perf.session).state = .idle ∨ (reverseOne t s.perf.session).state = .rewinding
    unfold reverseOne
    dsimp only
    split
    · exact .inl rfl
    · exact .inr rewinding

theorem reverseOne_eq {x : Session} (rewinding : x.state = .rewinding) : reverseOne t x
    = { x with
        state := if x.rewindCount ≤ 1 then .idle else .rewinding
        direction := .reverse
        stepPulses := x.stepPulses + 1
        rewindCount := x.rewindCount - 1
        reverseStepAt := if x.rewindCount ≤ 1 then none else some (t + 125) } := by
  have last : x.rewindCount - 1 = 0 ↔ x.rewindCount ≤ 1 := Nat.sub_eq_zero_iff_le
  unfold reverseOne
  simp only [last, rewinding]

/-- The ending limit has a moment: the clock runs in ENDING, and its value of PT is at most the highest. -/
theorem endingMoment_some {p : Performance} (ending : p.session.state = .ending) (begun : p.session.endingStart = some start) :
    ∃ t, endingMoment p = some t ∧ ptMoment (min ptMax (start + 40000)) p = some t := by
  have moment : endingMoment p = ptMoment (min ptMax (start + 40000)) p := by
    unfold endingMoment
    rw [ending, begun]
  obtain ⟨t, reached⟩ : ∃ t, ptMoment (min ptMax (start + 40000)) p = some t := by
    unfold ptMoment
    split
    · exact ⟨_, rfl⟩
    · rw [if_pos (by rw [ending, decide_eq_true (Nat.min_le_left ..)]; rfl)]
      exact ⟨_, rfl⟩
  exact ⟨t, moment.trans reached, reached⟩

end

/-- Bits that were set stay set. -/
theorem or_and_self_bits {w : Nat} (a b : BitVec w) : (a ||| b) &&& b = b := by
  ext i
  simpa using Or.inr

/-- Settles O46: a reverse step, and the ending limit, whose pause effects leave no roll holder (`pauseInstrument_rollGone`). -/
theorem rollEnds : Obligations.RollEnds := by
  intro t s running x
  refine ⟨fun rewinding moment later => ?_, fun start ending begun low fraction => ?_⟩
  · rw [exec_reverseStep running rewinding moment later, reverseOne_eq rewinding]
  · intro i rolled cut
    obtain ⟨t, moment, reached⟩ := endingMoment_some ending begun
    obtain ⟨q, there⟩ : ∃ q, advanceTo t s.perf = q := ⟨_, rfl⟩
    have instrument : q.instrument = i := there ▸ advanceTo_instrument t s.perf
    have queue : q.queue = s.perf.queue := there ▸ advanceTo_queue t
    have state : q.session.state = .ending := there ▸ (advanceTo_state t).trans ending
    have pt : q.session.pt = max x.pt (min ptMax (start + 40000)) := there ▸ advanceTo_ptMoment fraction reached low
    have now : q.now = s.perf.now + (t - s.perf.now) := there ▸ advance_now ..
    have counted : countRollCuts i = cut := countRollCuts_eq i
    obtain ⟨ended, ptKept, cleared, clock, emptied, final⟩ := settle_endingLimit (e := s.env) (q := q)
      (fun k => pauseInstrument_rollGone _ _ k) (fun d => (pauseInstrument_keeps _ _).2 d) state
    refine ⟨settle s.env (endingLimit s.env q), t - s.perf.now, ?_, ptKept.trans pt, clock.trans now, ?_, ?_, ended, emptied,
      cleared, fun k => ?_, ?_, ?_⟩
    · rw [← there]
      exact exec_moment (c := .endingLimit) (moment := fun _ p => endingMoment p) (f := fun e _ => endingLimit e) running rfl moment
    · rw [ptKept, ← there]
      rfl
    · rw [final, instrument, queue, counted, ← there]
      rfl
    · rw [final, raiseBoth_keys]
      exact pauseInstrument_rollGone ..
    · rw [final]
      exact or_and_self_bits ..
    · rw [final]
      exact or_and_self_bits ..

end Sys2Proof.Machine
end

section
/-! PROOFS. The values after a reset (O34). -/

namespace Sys2Proof.Machine

theorem reset_keys (level : MonitorLevel) (k : Key) : (Instrument.reset level).keys[k] = .reset := by
  show (Vector.replicate 88 KeyRecord.reset)[k.val] = _
  exact Vector.getElem_replicate _

theorem reset_pedal (level : MonitorLevel) (d : PedalName) : (Instrument.reset level).pedal d = .reset := by
  cases d <;> rfl

theorem reset_tracks (t : Track) : Detector.reset.holes[t] = .closed ∧ Detector.reset.noise[t] = 0 :=
  ⟨Vector.getElem_replicate _, Vector.getElem_replicate _⟩

/-- Settles O34: the records after a reset, field by field, with the blocks that repeat read by `reset_keys`, `reset_pedal` and
`reset_tracks`. -/
theorem resetValues : Obligations.ResetValues := by
  intro restLevel level lineHigh p half r
  have keys : ∀ k : Key, p.instrument.keys[k] = .reset := reset_keys level
  have pedals : ∀ d : PedalName, p.instrument.pedal d = .reset := reset_pedal level
  have profiles : ∀ n : Fin 4, State.reset.store.profiles[n] = ⟨factoryMap, true, if n = 0 then .fixed else .open_⟩ := by
    intro n
    match n with
    | 0 => rfl
    | 1 => rfl
    | 2 => rfl
    | 3 => rfl
  refine ⟨rfl, rfl, rfl, rfl, rfl, rfl, rfl, rfl, rfl, rfl, rfl, rfl, rfl, rfl, rfl, rfl, rfl, rfl, rfl,
    rfl, rfl, rfl, reset_tracks, rfl, rfl, rfl,
    rfl, rfl, rfl, rfl, rfl, rfl,
    (fun k => ?_), (fun d => ?_),
    rfl, rfl, rfl, rfl, rfl, rfl, rfl, rfl, rfl, rfl, rfl, rfl, rfl, rfl, rfl, rfl,
    rfl, rfl, rfl, rfl, rfl, rfl, rfl, rfl, rfl, rfl, rfl, rfl,
    rfl, rfl, rfl, rfl, rfl, rfl, rfl, rfl, rfl, profiles, rfl, rfl, rfl, rfl⟩
  · rw [keys]
    exact ⟨rfl, rfl, rfl, rfl, rfl, rfl, rfl, rfl, rfl⟩
  · rw [pedals]
    exact ⟨rfl, rfl, rfl, rfl, rfl, rfl, rfl⟩

end Sys2Proof.Machine
end

section
/-! PROOFS. The reads, the layouts of their data, and CLEAR-COUNTERS (O31). -/

namespace Sys2Proof.Machine

/-! ### The codes of the tables of Section 10.7, as places in their lists of values -/

theorem sessionState_code (x : SessionState) : x.code
    = codeIn [.idle, .free, .preparing, .cued, .playing, .starved, .paused, .ending, .rewinding, .faulted] x := by
  cases x <;> rfl

theorem source_code (x : Source) : x.code = codeIn [.sensor, .stream] x := by
  cases x <;> rfl

theorem faultCause_code (x : FaultCause) :
    x.code = codeIn [.none, .trackLost, .threadFault, .sensorFault, .rollRemoved] x := by
  cases x <;> rfl

theorem pauseCause_code (x : PauseCause) : x.code = codeIn [.none, .request, .lapse, .supply] x := by
  cases x <;> rfl

theorem holder_code (c : Claim) : holderCode c = codeIn [none, some Link.a, some Link.b] (c.held.map HeldClaim.link) := by
  unfold holderCode
  split
  · next free => rw [free]; rfl
  · next h held =>
    rw [held, Option.map_some]
    cases h.link <;> rfl

theorem leaseRemaining_eq (s : State) :
    leaseRemaining s = ((s.claim.held.map HeldClaim.leaseEnd).getD s.perf.now - s.perf.now) / 1000 := by
  unfold leaseRemaining
  cases s.claim.held with
  | none => simp
  | some h => rfl

theorem admission_code (x : Admission) : x.code = codeIn [.none, .holder, .both] x := by
  cases x <;> rfl

theorem monitor_code (x : MonitorLevel) : x.code = codeIn [.normal, .low, .critical] x := by
  cases x <;> rfl

theorem storeCodes_eq (t : Store) :
    storeCodes t = (codeIn [none, some false, some true] (t.commit.map Commit.programming),
      ((t.commit.map Commit.profile).getD 0).val) := by
  unfold storeCodes
  cases t.commit with
  | none => rfl
  | some c =>
    obtain ⟨_, _, _, _, programming⟩ := c
    cases programming <;> rfl

theorem protection_code (x : Protection) : x.code = codeIn [.open_, .guarded, .lockedUntilPower, .fixed] x := by
  cases x <;> rfl

theorem resetCause_code (x : ResetCause) : x.code = codeIn [.powerOn, .supplyFail, .resetLine, .linkReset] x := by
  cases x <;> rfl

theorem powerState_code (x : PowerState) : x.code = if x = .running then 0 else 1 := by
  cases x <;> rfl

theorem keyState_code (x : KeyState) :
    x.code = codeIn [.rest, .armed, .wait, .drive, .hold, .shed, .returning] x := by
  cases x <;> rfl

theorem pedal_code (d : PedalName) : pedalCode d = codeIn [.damper, .shift] d := by
  cases d <;> rfl

theorem half_code (h : HalfName) : h.code = codeIn [.bass, .treble] h := by
  cases h <;> rfl

theorem expressionKind_code (x : ExpressionKind) :
    x.code = codeIn [.slowOn, .slowOff, .fastOn, .fastOff, .freezeOn, .freezeOff, .hookToggle] x := by
  cases x <;> rfl

theorem origin_code (x : Origin) : x.code = codeIn [.roll, .linkA, .linkB] x := by
  cases x <;> rfl

theorem origins_char (o : Origins) : o.char = sourceSet o := by
  unfold Origins.char sourceSet
  cases o.roll <;> cases o.linkA <;> cases o.linkB <;> rfl

/-! ### The fields of the reads (Sections 10.7.7, 10.7.8) -/

theorem layOut_eq_laidOut : layOut = laidOut := rfl

/-- Fields take as many characters as their widths add up to. -/
theorem layOut_length (fields : List (Nat × Nat)) : (layOut fields).length = (fields.map Prod.fst).sum := by
  simp [layOut, List.length_flatMap]

theorem statusFields_eq (s : State) : statusFields s = statusLayout s := by
  simp only [statusFields, statusLayout, sessionState_code, source_code, faultCause_code, pauseCause_code, holder_code,
    leaseRemaining_eq, admission_code, monitor_code, storeCodes_eq, resetCause_code, powerState_code, profileChar,
    protection_code]
  rfl

theorem statusRecord_length (s : State) : (statusRecord s).length = 35 := by
  have profiles : ((s.store.profiles.toList.map fun p => (1, profileChar p)).map Prod.fst).sum = 4 := by
    rw [List.map_map]
    simp [Function.comp_def]
  rw [statusRecord, layOut_length, statusFields]
  simp only [List.map_append, List.sum_append, profiles, List.map_cons, List.map_nil, List.sum_cons, List.sum_nil,
    Nat.reduceAdd]

theorem strikeBlock_eq (st : Option Strike) : strikeBlock st = strikeLayout st := by
  cases st with
  | none => rfl
  | some st => simp [strikeBlock, strikeLayout, origins_char]

theorem strikeBlock_widths (st : Option Strike) : ((strikeBlock st).map Prod.fst).sum = 10 := by
  cases st <;> rfl

theorem remaining_eq (now : Nat) (t : Option Nat) : remaining now t = (t.getD now - now) / 100 := by
  cases t <;> simp [remaining]

theorem elapsed_eq (now : Nat) (t : Option Nat) : elapsed now t = min 4294967295 ((now - t.getD now) / 100) := by
  cases t <;> simp [elapsed]

theorem keyData_eq (now : Nat) (r : KeyRecord) : keyData now r = laidOut (keyLayout now r) := by
  simp only [keyData, keyLayout, keyState_code, origins_char, strikeBlock_eq, remaining_eq, elapsed_eq, layOut_eq_laidOut]

theorem keyData_length (now : Nat) (r : KeyRecord) : (keyData now r).length = 29 := by
  rw [keyData, layOut_length]
  simp only [List.map_append, List.sum_append, strikeBlock_widths]
  rfl

theorem entryFields_eq (x : Entry) : entryFields x = entryLayout x := by
  cases action : x.action with
  | strike k accented mode hold =>
    cases mode <;> simp [entryFields, entryLayout, action, Action.codes, Action.strikeCodes, actionLayout, strikePart, origin_code,
      keyNumber]
  | release | pedalDown | pedalUp | expression | sectionMark | endMark =>
    simp [entryFields, entryLayout, action, Action.codes, Action.strikeCodes, actionLayout, strikePart, origin_code, keyNumber,
      pedal_code, half_code, expressionKind_code]

theorem entryFields_length (x : Entry) : (layOut (entryFields x)).length = 26 := layOut_length _

theorem queueData_eq (q : Queue) :
    queueData q = laidOut ((2, q.entries.length) :: (q.entries.take 8).flatMap entryLayout) := by
  simp only [queueData, laidOut, List.flatMap_cons, List.flatMap_assoc, layOut, entryFields_eq]

theorem queueData_length (q : Queue) : (queueData q).length = 2 + 26 * min 8 q.entries.length := by
  simp only [queueData, List.length_append, leBytes_length, List.length_flatMap, entryFields_length, List.map_const',
    List.sum_replicate, List.length_take, smul_eq_mul, Nat.mul_comm]

theorem leBytes_getElem (n v i : Nat) (inside : i < n) : (leBytes n v)[i]? = some (BitVec.ofNat 8 (v / 256 ^ i)) := by
  induction n generalizing v i with
  | zero => exact absurd inside (Nat.not_lt_zero _)
  | succ n ih =>
    cases i with
    | zero => simp [leBytes]
    | succ i => rw [leBytes, List.getElem?_cons_succ, ih _ _ (Nat.lt_of_succ_lt_succ inside), Nat.div_div_eq_div_mul, Nat.pow_succ']

/-! ### The requests (R198, R201 to R203, R206) -/

theorem rateOf_of_code {code : Byte} {r : Rate} (named : (code = 0 ∧ r = .r250k) ∨ (code = 1 ∧ r = .r500k)
    ∨ (code = 2 ∧ r = .r1M) ∨ (code = 3 ∧ r = .r2M)) : rateOf code = some r := by
  rcases named with ⟨rfl, rfl⟩ | ⟨rfl, rfl⟩ | ⟨rfl, rfl⟩ | ⟨rfl, rfl⟩ <;> rfl

/-- A character above a code is not that code. -/
theorem ne_of_code_below {code b : Byte} {n : Nat} (out : n ≤ b.toNat) (below : code.toNat < n) : b ≠ code :=
  fun same => absurd (same ▸ out) (Nat.not_le.2 below)

theorem rateOf_of_out {code : Byte} (out : 4 ≤ code.toNat) : rateOf code = none := by
  unfold rateOf
  rw [if_neg (ne_of_code_below out (by decide)), if_neg (ne_of_code_below out (by decide)),
    if_neg (ne_of_code_below out (by decide)), if_neg (ne_of_code_below out (by decide))]

theorem keyOf_of_number {key : Byte} {k : Key} (number : key.toNat = k.val + 1) : keyOf key = some k := by
  have inside : 1 ≤ key.toNat ∧ key.toNat ≤ 88 := by omega
  unfold keyOf
  rw [dif_pos inside]
  exact congrArg some (Fin.ext (by simp [number]))

theorem keyOf_of_out {key : Byte} (out : key.toNat = 0 ∨ 88 < key.toNat) : keyOf key = none :=
  dif_neg (by omega)

theorem groupOf_of_out {group : Byte} (out : 2 ≤ group.toNat) (s : State) : groupOf group s = none := by
  unfold groupOf
  rw [if_neg (ne_of_code_below out (by decide)), if_neg (ne_of_code_below out (by decide))]

/-- Cleared books balance: ACCEPTED is the number of strikes in flight. -/
theorem clearPerformance_conserved (p : Performance) : strikesConserved (clearPerformance p) := by
  show BitVec.ofNat 32 (inFlight p) = 0 + 0 + 0 + 0 + BitVec.ofNat 32 (inFlight p)
  simp

section
variable {l : Link} {s : State}

theorem exec_readCounters {group : Byte} (taken : Takes s l (.readCounters l group)) :
    (group = 0 → exec (.readCounters l group) s = .next (respond l (.readCounters l group) .ok
        ((countersOf s).flatMap fun x => leBytes 4 x.toNat) none s))
      ∧ (group = 1 → exec (.readCounters l group) s = .next (respond l (.readCounters l group) .ok
        (s.perf.detector.noise.toList.flatMap fun n => leBytes 2 n) none s))
      ∧ (2 ≤ group.toNat → exec (.readCounters l group) s
        = .next (respond l (.readCounters l group) .outOfRange [] none s)) := by
  refine ⟨fun zero => ?_, fun one => ?_, fun out => ?_⟩
  · subst zero
    exact exec_answered taken rfl rfl
  · subst one
    exact exec_answered taken rfl rfl
  · refine exec_refused taken rfl ?_
    unfold runReadCounters
    rw [groupOf_of_out out, requireValue_none]

theorem exec_readKey {key : Byte} (taken : Takes s l (.readKey l key)) :
    (∀ k : Key, key.toNat = k.val + 1 → exec (.readKey l key) s
        = .next (respond l (.readKey l key) .ok (keyData s.perf.now s.perf.instrument.keys[k]) none s))
      ∧ (key.toNat = 0 ∨ 88 < key.toNat → exec (.readKey l key) s
        = .next (respond l (.readKey l key) .outOfRange [] none s)) := by
  refine ⟨fun k number => exec_answered taken rfl ?_, fun out => exec_refused taken rfl ?_⟩
  · unfold runReadKey
    rw [keyOf_of_number number, requireValue_some]
  · unfold runReadKey
    rw [keyOf_of_out out, requireValue_none]

theorem exec_setLinkRate {code : Byte} (taken : Takes s l (.setLinkRate l code)) :
    (∀ r, (code = 0 ∧ r = .r250k) ∨ (code = 1 ∧ r = .r500k) ∨ (code = 2 ∧ r = .r1M) ∨ (code = 3 ∧ r = .r2M) →
        exec (.setLinkRate l code) s = .next (respond l (.setLinkRate l code) .ok []
          (if r = (s.link l).rate then none else some (.rate r)) s))
      ∧ (4 ≤ code.toNat → exec (.setLinkRate l code) s
        = .next (respond l (.setLinkRate l code) .outOfRange [] none s)) := by
  refine ⟨fun r named => ?_, fun out => exec_refused taken rfl ?_⟩
  · have ran : runSetLinkRate l code s = (⟨.ok, [], if r = (s.link l).rate then none else some (.rate r)⟩, s) := by
      unfold runSetLinkRate
      rw [rateOf_of_code named, requireValue_some]
      split
      · rfl
      · rfl
    exact exec_replied taken rfl ran
  · unfold runSetLinkRate
    rw [rateOf_of_out out, requireValue_none]

theorem exec_linkReset (taken : Takes s l (.linkReset l)) (free : s.otherHolds l = false) :
    exec (.linkReset l) s = .next (respond l (.linkReset l) .ok [] (some .linkReset) s) := by
  have ran : runLinkReset l s = (⟨.ok, [], some .linkReset⟩, s) := by
    unfold runLinkReset
    rw [require_pass (claim_passes free)]
  exact exec_replied taken rfl ran

end

/-- Settles O31: the data of each read is its layout, and cleared books balance. -/
theorem readsAndClear : Obligations.ReadsAndClear := by
  refine ⟨fun l s => ⟨fun taken => ?_, fun group taken => exec_readCounters taken, fun key taken => ?_, fun taken => ?_,
    fun code taken => exec_setLinkRate taken, exec_linkReset, fun kind body taken => exec_refused taken rfl rfl⟩,
    fun n v => ⟨leBytes_length n v, leBytes_getElem n v⟩, fun l s taken => ?_⟩
  · exact ⟨exec_answered taken rfl rfl, congrArg laidOut (statusFields_eq s), statusRecord_length s⟩
  · obtain ⟨reads, refuses⟩ := exec_readKey taken
    exact ⟨fun k number => ⟨reads k number, keyData_eq .., keyData_length ..⟩, refuses⟩
  · exact ⟨exec_answered taken rfl rfl, queueData_eq _, queueData_length _⟩
  · exact ⟨_, exec_answered taken rfl rfl, clearPerformance_conserved s.perf, rfl⟩

end Sys2Proof.Machine
end

section
/-! PROOFS. The roll-present line and the supply monitor on a part that runs (O42). -/

namespace Sys2Proof.Machine

/-! ### CRITICAL at a pedal (R134) -/

/-- The record of a pedal after CRITICAL: it drives down no more, holds no assist, and stops at once. -/
def PedalRecord.afterCritical (m : Moment) (d : PedalName) (r : PedalRecord) : PedalRecord :=
  let left : PedalRecord := { r with holders := .empty, requestMoment := none }
  match r.state with
  | .down | .goingDown => goneUp m d false left
  | .goingUp => { left with assistEnd := none, bridge := r.bridge.stopAtOnce m.now }
  | .up => { left with bridge := r.bridge.stopAtOnce m.now }

section
variable {m : Moment} {d : PedalName} {r : PedalRecord}

theorem afterCritical_driven (state : r.state = .down ∨ r.state = .goingDown) :
    r.afterCritical m d = goneUp m d false { r with holders := .empty, requestMoment := none } := by
  obtain ⟨was, _, _, _, _, _⟩ := r
  rcases state with state | state <;> cases state <;> rfl

theorem afterCritical_goingUp (state : r.state = .goingUp) : r.afterCritical m d
    = { r with holders := .empty, requestMoment := none, assistEnd := none, bridge := r.bridge.stopAtOnce m.now } := by
  obtain ⟨was, _, _, _, _, _⟩ := r
  cases state
  rfl

theorem afterCritical_up (state : r.state = .up) : r.afterCritical m d
    = { r with holders := .empty, requestMoment := none, bridge := r.bridge.stopAtOnce m.now } := by
  obtain ⟨was, _, _, _, _, _⟩ := r
  cases state
  rfl

theorem goneUp_critical : ((goneUp m d false r).state = .up ∨ (goneUp m d false r).state = .goingUp)
    ∧ (goneUp m d false r).holders = r.holders ∧ (goneUp m d false r).requestMoment = r.requestMoment
    ∧ (goneUp m d false r).assistEnd = none ∧ (goneUp m d false r).bridge = ⟨.off, .off, m.now⟩ := by
  refine ⟨?_, rfl, rfl, rfl, rfl⟩
  unfold goneUp
  dsimp only
  split
  · exact .inl rfl
  · exact .inr rfl

theorem PedalRecord.afterCritical_off (m : Moment) (d : PedalName) (r : PedalRecord) :
    let x := r.afterCritical m d
    (x.state = .up ∨ x.state = .goingUp) ∧ x.holders.isEmpty = true ∧ x.requestMoment = none
      ∧ (r.state ≠ .up → x.assistEnd = none) ∧ x.bridge = ⟨.off, .off, m.now⟩ := by
  intro x
  obtain ⟨state, holders, idle, stopped, bridge⟩ :=
    goneUp_critical (m := m) (d := d) (r := { r with holders := .empty, requestMoment := none })
  have driven : r.state = .down ∨ r.state = .goingDown →
      (x.state = .up ∨ x.state = .goingUp) ∧ x.holders.isEmpty = true ∧ x.requestMoment = none
        ∧ (r.state ≠ .up → x.assistEnd = none) ∧ x.bridge = ⟨.off, .off, m.now⟩ := fun was => by
    simp only [x, afterCritical_driven was]
    exact ⟨state, by rw [holders]; rfl, idle, fun _ => stopped, bridge⟩
  cases was : r.state with
  | down => exact was ▸ driven (.inl was)
  | goingDown => exact was ▸ driven (.inr was)
  | goingUp =>
    simp only [x, afterCritical_goingUp was]
    exact ⟨.inr was, rfl, trivial, fun _ => trivial, rfl⟩
  | up =>
    simp only [x, afterCritical_up was]
    exact ⟨.inl was, rfl, trivial, fun up => absurd rfl up, rfl⟩

/-- Where no key is in SHED, CRITICAL at a pedal sets its record, counts a request that waits, and changes nothing else but the units
and the damper's report. -/
theorem criticalPedalOnly_eq {i : Instrument} (was : i.pedal d = r) (noShed : ∀ k : Key, i.keys[k].state ≠ .shed) :
    ∃ (units : Nat) (down : Bool), criticalPedalOnly m d i = { setPedal d (r.afterCritical m d) i with
      pedalDropped := i.pedalDropped + countIf r.requestMoment.isSome
      unitsInUse := units
      damperDown := down } := by
  obtain ⟨left, leaves⟩ : ∃ left : PedalRecord, { r with holders := .empty, requestMoment := none } = left := ⟨_, rfl⟩
  obtain ⟨n, counted⟩ : ∃ n, i.pedalDropped + countIf r.requestMoment.isSome = n := ⟨_, rfl⟩
  have goes : ∃ (units : Nat) (down : Bool), goUpOnly m d false (setPedal d left { i with pedalDropped := n })
      = { setPedal d (goneUp m d false left) i with pedalDropped := n, unitsInUse := units, damperDown := down } := by
    rw [goUpOnly_eq]
    unfold pedalGoneUp
    rw [setPedal_pedal]
    cases d with
    | damper => exact ⟨_, _, cutShed_none noShed⟩
    | shift => exact ⟨_, _, rfl⟩
  have driven : r.state = .down ∨ r.state = .goingDown → r.afterCritical m d = goneUp m d false left :=
    fun state => leaves ▸ afterCritical_driven state
  unfold criticalPedalOnly
  rw [was]
  dsimp only
  rw [counted, leaves, setPedal_pedal]
  cases state : r.state with
  | down =>
    rw [driven (.inl state)]
    dsimp only
    exact goes
  | goingDown =>
    rw [driven (.inr state)]
    dsimp only
    exact goes
  | goingUp =>
    rw [afterCritical_goingUp state, ← leaves]
    dsimp only
    cases d <;> exact ⟨_, _, rfl⟩
  | up =>
    rw [afterCritical_up state, ← leaves]
    dsimp only
    cases d <;> exact ⟨_, _, rfl⟩

end

/-! ### CRITICAL at the instrument (R112, R134, R148) -/

/-- CRITICAL: every key and pedal is turned off, the losses are counted, and the budget and its list are empty. -/
theorem enterCritical_eq (m : Moment) (i : Instrument) :
    let count (test : KeyRecord → Bool) : Counter := BitVec.ofNat 32 (allKeys.filter fun k => test i.keys[k]).length
    ∃ keys : Vector KeyRecord 88, (∀ k : Key, keys[k] = i.keys[k].afterCritical m k) ∧ enterCritical m i = { i with
      keys := keys
      cut := i.cut + count (fun r => !r.holders.isEmpty)
      dropped := i.dropped + count (fun r => r.armed.isSome && decide (r.state = .wait))
      discarded := i.discarded + count (fun r => r.armed.isSome && decide (r.state ≠ .wait)) + count (fun r => r.pending.isSome)
      damper := i.damper.afterCritical m .damper
      shift := i.shift.afterCritical m .shift
      pedalDropped := i.pedalDropped + countIf i.damper.requestMoment.isSome + countIf i.shift.requestMoment.isSome
      monitor := .critical
      unitsInUse := 0
      damperDown := false
      waitList := []
      noticesA := i.noticesA ||| noticeBit .fault
      noticesB := i.noticesB ||| noticeBit .fault } := by
  intro count
  obtain ⟨keys, sets⟩ := criticalKeysOnly_eq m { i with monitor := .critical }
  obtain ⟨j, given⟩ : ∃ j, criticalKeysOnly m { i with monitor := .critical } = j := ⟨_, rfl⟩
  rw [given] at keys sets
  have noShed : ∀ k : Key, j.keys[k].state ≠ .shed := fun k shed => by
    rw [keys k] at shed
    rcases afterCritical_state m k i.keys[k] with state | state <;> exact absurd (state.symm.trans shed) (by decide)
  have damper : j.damper = i.damper := by rw [sets]
  have shift : j.shift = i.shift := by rw [sets]
  obtain ⟨units, down, first⟩ := criticalPedalOnly_eq (m := m) (d := .damper) (i := j) damper noShed
  obtain ⟨units', down', second⟩ := criticalPedalOnly_eq (m := m) (d := .shift) (i := criticalPedalOnly m .damper j)
    (r := i.shift) (by rw [first]; exact shift) (by rw [first]; exact noShed)
  refine ⟨j.keys, keys, ?_⟩
  unfold enterCritical
  rw [given, second, first, sets]
  rfl

/-- The pause effects change nothing where nothing is held, nothing is at a key, and nothing waits. -/
theorem pauseInstrument_of_empty {m : Moment} {i : Instrument}
    (keys : ∀ k : Key, i.keys[k].holders = .empty ∧ i.keys[k].armed = none ∧ i.keys[k].pending = none)
    (pedals : ∀ d, (i.pedal d).holders.roll = false) (none : i.waitList = []) (idle : i.unitsInUse = 0) :
    pauseInstrument m i = i := by
  have key : ∀ k : Key, pauseKeyOnly m k i = i := by
    intro k
    obtain ⟨holders, armed, pending⟩ := keys k
    obtain ⟨r, was⟩ : ∃ r, i.keys[k] = r := ⟨_, rfl⟩
    have left : r.leftByRoll = r := by
      rw [was] at holders armed pending
      unfold KeyRecord.leftByRoll
      rw [armed, pending, holders]
      cases r
      cases holders
      cases armed
      cases pending
      rfl
    have lost : r.lostToPause = 0 := by
      rw [was] at armed pending
      unfold KeyRecord.lostToPause
      rw [armed, pending]
      rfl
    have stays : i.keys.set k r = i.keys := by
      rw [← was]
      exact Vector.set_getElem_self ..
    rw [was] at holders armed
    rw [pauseKeyOnly_eq, was, left, lost, stays, armed, holders, add_zero]
    rfl
  have allStay : pauseKeysOnly m i = i := by
    unfold pauseKeysOnly forKeys
    exact List.foldl_fixed' (f := fun acc k => pauseKeyOnly m k acc) key allKeys
  have pedal : ∀ d, leavePedalOnly m d .roll i = i := fun d => by
    have gone : (i.pedal d).holders.has .roll = false := pedals d
    unfold leavePedalOnly
    dsimp only
    rw [gone, if_neg Bool.false_ne_true]
  unfold pauseInstrument
  rw [allStay, pedal, pedal]
  exact pass_of_idle none (by rw [idle]; exact Nat.zero_le _)

/-- Nothing is held, at a key, or waiting after CRITICAL, and the pause effects change nothing more. -/
theorem pauseInstrument_enterCritical (m m' : Moment) (i : Instrument) :
    pauseInstrument m' (enterCritical m i) = enterCritical m i := by
  obtain ⟨keys, off, sets⟩ := enterCritical_eq m i
  have damper := (i.damper.afterCritical_off m .damper).2.1
  have shift := (i.shift.afterCritical_off m .shift).2.1
  have roll : ∀ o : Origins, o.isEmpty = true → o.roll = false := fun o empty => by
    simp [Origins.isEmpty] at empty
    exact empty.1.1
  refine pauseInstrument_of_empty (fun k => ?_) (fun d => ?_) (by rw [sets]) (by rw [sets])
  · rw [sets]
    dsimp only
    rw [off k]
    exact ⟨rfl, rfl, rfl⟩
  · rw [sets]
    cases d with
    | damper => exact roll _ damper
    | shift => exact roll _ shift

/-! ### The roll-present line (R23, R24) -/

section
variable {s : State}

theorem exec_rollRemoved (running : s.running = true) : exec (.rollPresentChange false) s
    = .next { s with
        pins := { s.pins with rollPresent := false }
        perf := settle ⟨s.map, false⟩ (rollRemoved ⟨s.map, false⟩ s.perf) } :=
  congrArg _ (changePerf_running (f := rollRemoved) (s := setPins (fun p => { p with rollPresent := false }) s) running)

/-- The roll is watched in a session in progress. -/
theorem watchesRoll_eq (x : SessionState) : x.watchesRoll = x.inProgress := by
  cases x <;> rfl

theorem rollRemoved_faults {e : Env} {p : Performance} (sensor : p.session.source = .sensor)
    (progress : p.session.state.inProgress = true) :
    settle e (rollRemoved e p) = faultSession e .rollRemoved p := by
  rw [rollRemoved, if_pos ⟨sensor, (watchesRoll_eq _).trans progress⟩, settle_of_faulted (faultSession_state ..)]

theorem rollRemoved_abandons {e : Env} {p : Performance} (rewinding : p.session.state = .rewinding) :
    settle e (rollRemoved e p) = { p with session := abandonRewind p.session } := by
  have quiet : ¬ (p.session.source = .sensor ∧ p.session.state.watchesRoll = true) := by
    rw [rewinding]
    exact fun both => Bool.false_ne_true both.2
  rw [rollRemoved, if_neg quiet, if_pos rewinding, settle_of_ended (.inl rfl)]
  rfl

/-! ### The supply monitor (R138, R146 to R148) -/

theorem exec_monitorLevelChange (low critical : Bool) (running : s.running = true) :
    let s' : State := { s with pins := { s.pins with lowIndication := low, criticalIndication := critical } }
    (levelOf low critical = s.perf.instrument.monitor → exec (.monitorLevelChange low critical) s = .next s')
      ∧ (levelOf low critical ≠ s.perf.instrument.monitor → exec (.monitorLevelChange low critical) s
        = .next (settled s' (changeMonitor (levelOf low critical) s.env s.perf))) := by
  intro s'
  have reads : exec (.monitorLevelChange low critical) s = .next (readMonitor s') := rfl
  have runs : s'.running = true := running
  have level : s'.pins.level = levelOf low critical := rfl
  refine ⟨fun same => ?_, fun other => ?_⟩
  · rw [reads, readMonitor, runs, level, decide_eq_false (not_not.2 same)]
    rfl
  · rw [reads, readMonitor, runs, level, decide_eq_true other]
    rfl

/-- A session in play pauses at CRITICAL, and no other session is in ENDING, so that nothing completes. -/
theorem settle_critical {e : Env} {p : Performance} : let r := settle e (changeMonitor .critical e p)
    r.instrument = enterCritical (p.moment e) p.instrument
      ∧ (p.session.state.inPlay = true → r.session.state = .paused ∧ r.session.pauseCause = .supply) := by
  intro r
  obtain ⟨q, off⟩ : ∃ q, onInstrument e (monitorChange .critical) p = q := ⟨_, rfl⟩
  have instrument : q.instrument = enterCritical (p.moment e) p.instrument := off ▸ rfl
  have session : q.session = p.session := off ▸ rfl
  have changed : r = settle e (if q.session.state.inPlay then pauseSession e .supply q else q) := by
    rw [← off]
    rfl
  rw [changed, ← session]
  by_cases plays : q.session.state.inPlay = true
  · rw [if_pos plays]
    have paused : (pauseSession e .supply q).session.state = .paused := rfl
    have cause : (pauseSession e .supply q).session.pauseCause = .supply := rfl
    have kept : (pauseSession e .supply q).instrument = enterCritical (p.moment e) p.instrument := by
      rw [pauseSession_instrument, instrument, pauseInstrument_enterCritical]
    generalize pauseSession e .supply q = y at paused cause kept ⊢
    obtain ⟨_, _, _, _, settled⟩ := settle_steps (e := e) (p := y) (by rw [paused]; decide)
    rw [settled]
    exact ⟨kept, fun _ => ⟨paused, cause⟩⟩
  · rw [if_neg plays]
    obtain ⟨_, _, _, _, settled⟩ := settle_steps (e := e) (p := q) (fun ending => plays (by rw [ending]; rfl))
    rw [settled]
    exact ⟨instrument, fun plays' => absurd plays' plays⟩

end

/-- Settles O42: the roll removed faults or ends the rewind, and CRITICAL turns everything off (`enterCritical_eq`). -/
theorem pinChanges : Obligations.PinChanges := by
  intro s running
  refine ⟨?_, ⟨_, exec_rollRemoved running, fun sensor progress => ?_, fun rewinding => ?_⟩, fun low critical => ?_⟩
  · have standby : ¬ (s.pins.rollPresent = false ∧ s.power.state = .standby) := fun both => by
      have runs : s.power.state = .running := of_decide_eq_true running
      exact absurd (runs.symm.trans both.2) (by decide)
    rw [exec_rollPresentChange_true, if_neg standby]
  · rw [rollRemoved_faults sensor progress]
    have queue : (faultSession ⟨s.map, false⟩ .rollRemoved s.perf).queue = s.perf.queue := by simp [faultSession]
    have detector : (faultSession ⟨s.map, false⟩ .rollRemoved s.perf).detector = s.perf.detector := by simp [faultSession]
    refine ⟨rfl, rfl, rfl, ?_, rfl, rfl, rfl, queue, detector, or_and_self_bits _ _, or_and_self_bits _ _⟩
    simp [faultSession]
  · rw [rollRemoved_abandons rewinding]
    exact ⟨rfl, rfl, rfl, rfl, rfl⟩
  · intro s' level i count
    obtain ⟨same, changes⟩ := exec_monitorLevelChange low critical running
    refine ⟨same, fun normal other => ?_, fun low' other => ?_, fun critical' other => ?_⟩
    · have given : levelOf low critical = .normal := normal
      rw [changes (by rw [given]; exact other.symm), given]
      rfl
    · have given : levelOf low critical = .low := low'
      rw [changes (by rw [given]; exact other.symm), given]
      rfl
    · have given : levelOf low critical = .critical := critical'
      obtain ⟨keys, off, sets⟩ := enterCritical_eq s.moment i
      obtain ⟨instrument, pauses⟩ := settle_critical (e := s.env) (p := s.perf)
      refine ⟨settle s.env (changeMonitor .critical s.env s.perf), ?_, ?_⟩
      · rw [changes (by rw [given]; exact other.symm), given]
        rfl
      · generalize settle s.env (changeMonitor .critical s.env s.perf) = p at instrument pauses ⊢
        rw [show p.instrument = _ from instrument.trans sets]
        refine ⟨rfl, rfl, rfl, rfl, off, fun d => ?_, rfl, rfl, rfl, rfl, rfl, rfl, rfl, rfl, rfl, pauses⟩
        cases d with
        | damper => exact PedalRecord.afterCritical_off s.moment .damper i.damper
        | shift => exact PedalRecord.afterCritical_off s.moment .shift i.shift

end Sys2Proof.Machine
end

section
/-! PROOFS. The fire request and its grant, and the outputs in their periods (O50). -/

namespace Sys2Proof.Machine

/-! ### A pass with one request waiting (R141) -/

section
variable {m : Moment} {i : Instrument} {x : WaitEntry} {rest : List WaitEntry}

theorem passMove_grants (list : i.waitList = x :: rest) (fits : i.unitsInUse + x.requester.cost ≤ i.effective m.map) :
    passMove m i = some (grant m x { i with waitList := rest }) := by
  unfold passMove
  rw [if_neg (by omega), list]
  exact if_pos fits

/-- A request that fits, with nothing behind it, is granted, and the pass is over. -/
theorem pass_grants_one (list : i.waitList = [x]) (fits : i.unitsInUse + x.requester.cost ≤ i.effective m.map)
    {j : Instrument} (granted : grant m x { i with waitList := [] } = j) (empty : j.waitList = [])
    (within : j.unitsInUse ≤ j.effective m.map) : pass m i = j := by
  rw [pass_of_move (passMove_grants list fits), granted, pass_of_idle empty within]

/-- A request that does not fit waits where the damper is up. -/
theorem pass_stuck (list : i.waitList = x :: rest) (tight : i.effective m.map < i.unitsInUse + x.requester.cost)
    (up : i.damperDown = false) : pass m i = i := by
  have none : shedOne m i = none := if_neg (by rw [up]; decide)
  refine pass_of_none ?_
  unfold passMove
  rw [none, list]
  dsimp only
  rw [if_neg (Nat.not_le.2 tight)]
  exact ite_self _

end

/-! ### The fire request (R95, R96, R99, R139) -/

section
variable {m : Moment} {k : Key} {i : Instrument} {r : KeyRecord} {st : Strike}

/-- The instrument with a key in WAIT and its request in the list. -/
def asked (m : Moment) (k : Key) (r : KeyRecord) (i : Instrument) : Instrument :=
  { i with
    waitList := insertWait ⟨.key k, m.now, m.now + m.map.supply.lateLimit * 1000⟩ i.waitList
    keys := i.keys.set k { r with state := .wait, requestMoment := some m.now } }

theorem askIfDue_asks (was : i.keys[k] = r) (state : r.state = .armed) (armed : r.armed = some st) (due : st.fire ≤ m.pt) :
    askIfDue m k i = pass m (asked m k r i) := by
  rw [askIfDue_of_armed (st := st) (by rwa [was]) (by rwa [was]), if_pos due, askOnly, was]
  rfl

/-- The instrument with a key in WAIT granted its drive at once. -/
def driven (m : Moment) (k : Key) (r : KeyRecord) (st : Strike) (i : Instrument) : Instrument :=
  { i with
    unitsInUse := i.unitsInUse + 3
    fired := i.fired + 1
    keys := i.keys.set k { r with
      state := .drive
      armed := none
      requestMoment := none
      driveEnd := some (m.now + m.map.keys[k].driveLength * 100)
      channel := r.channel.switch m.now (.forward st.duty) } }

theorem pass_asked_fits (armed : r.armed = some st) (none : i.waitList = []) (fits : i.unitsInUse + 3 ≤ i.effective m.map) :
    pass m (asked m k r i) = driven m k r st i := by
  have list : (asked m k r i).waitList = [⟨.key k, m.now, m.now + m.map.supply.lateLimit * 1000⟩] := by
    show insertWait _ i.waitList = _
    rw [none]
    rfl
  have waits : (i.keys.set k { r with state := .wait, requestMoment := some m.now })[k]
      = { r with state := .wait, requestMoment := some m.now } := setKey_self k _ i
  refine pass_grants_one list fits ?_ none fits
  unfold grant asked
  dsimp only
  unfold grantKey
  dsimp only
  rw [waits]
  dsimp only
  rw [armed]
  dsimp only
  rw [if_neg (by omega), driven, ← none]
  simp [setKey]

theorem pass_asked_stuck (none : i.waitList = []) (tight : i.effective m.map < i.unitsInUse + 3) (up : i.damperDown = false) :
    pass m (asked m k r i) = { i with
      waitList := [⟨.key k, m.now, m.now + m.map.supply.lateLimit * 1000⟩]
      keys := i.keys.set k { r with state := .wait, requestMoment := some m.now } } := by
  have list : (asked m k r i).waitList = [⟨.key k, m.now, m.now + m.map.supply.lateLimit * 1000⟩] := by
    show insertWait _ i.waitList = _
    rw [none]
    rfl
  rw [pass_stuck list tight up, asked, none]
  rfl

end

section
variable {s : State} {k : Key} {st : Strike} {t : Nat}

theorem fireMoment_eq (state : s.perf.instrument.keys[k].state = .armed) (armed : s.perf.instrument.keys[k].armed = some st) :
    fireMoment k s.perf = ptMoment st.fire s.perf := by
  unfold fireMoment
  dsimp only
  rw [state, armed]

theorem exec_fireRequest (running : s.running = true) (reached : fireMoment k s.perf = some t) :
    exec (.fireRequest k) s = .next (settled s { advanceTo t s.perf with
      instrument := askIfDue ((advanceTo t s.perf).moment s.env) k s.perf.instrument }) := by
  rw [exec_moment (c := .fireRequest k) (moment := fun _ p => fireMoment k p)
    (f := fun e _ => onInstrument e fun m i => askIfDue m k i) running rfl reached, onInstrument, advanceTo_instrument]

/-- PT reaches a value it has reached, and a value ahead of it while the clock runs. -/
theorem ptMoment_some {p : Performance} {target : Nat} (ahead : p.session.pt < target ∧ p.session.state.clockRuns = true
    ∧ target ≤ ptMax ∨ target ≤ p.session.pt) : ∃ t, ptMoment target p = some t := by
  unfold ptMoment
  rcases ahead with ⟨before, runs, inside⟩ | past
  · rw [if_neg (Nat.not_le.2 before), runs, Bool.true_and, if_pos (decide_eq_true inside)]
    exact ⟨_, rfl⟩
  · rw [if_pos past]
    exact ⟨_, rfl⟩

end

/-- Settles O50: the key that asks, its grant in the pass of one request, and what drives an output by its period. -/
theorem keysFire : Obligations.KeysFire := by
  refine ⟨fun k st s running fraction low => ?_, fun o now t d => ?_⟩
  · intro i r state armed ahead
    obtain ⟨t, moment⟩ := ptMoment_some ahead
    have pt := advanceTo_ptMoment fraction moment low
    have reached := (fireMoment_eq state armed).trans moment
    have executed := exec_fireRequest running reached
    have due : st.fire ≤ ((advanceTo t s.perf).moment s.env).pt := (Nat.le_max_right ..).trans pt.ge
    rw [askIfDue_asks (m := (advanceTo t s.perf).moment s.env) rfl state armed due] at executed
    refine ⟨advanceTo t s.perf, pt, advanceTo_onlyTime .., executed, fun none fits => ?_, fun none tight up => ?_⟩
    · rw [executed, pass_asked_fits (m := (advanceTo t s.perf).moment s.env) armed none fits]
      rfl
    · rw [executed, pass_asked_stuck (m := (advanceTo t s.perf).moment s.env) none tight up]
      rfl
  · refine ⟨driveAt_switch_same o d, driveAt_switch_next o d, fun same => ?_, driveAt_stopAtOnce o now t,
      fun duty drives => conducts_eq drives, fun off => ?_⟩
    · unfold Output.driveAt
      rw [show t / outputPeriod = now / outputPeriod from same]
    · unfold Output.conducts
      rw [off]

end Sys2Proof.Machine
end

section
/-! PROOFS. How a key comes back: drive end, return expiry, drop and release (O51). -/

namespace Sys2Proof.Machine

section
variable {m : Moment} {k : Key} {i : Instrument} {r : KeyRecord} {st : Strike} {o : Origin}

/-- A change of one key's record. -/
theorem setKey_eq (k : Key) (r : KeyRecord) (i : Instrument) : setKey k r i = { i with keys := i.keys.set k r } := rfl

/-! ### Drive end (R100) -/

theorem endDrive_holds (was : i.keys[k] = r) (empty : r.pending = none) (held : r.holders.isEmpty = false) :
    endDrive k m i = pass m { i with
      unitsInUse := i.unitsInUse - 2
      keys := i.keys.set k { r with
        state := .hold
        driveEnd := none
        holdStart := some m.now
        channel := r.channel.switch m.now (.forward m.map.keys[k].holdDuty) } } := by
  unfold endDrive
  rw [was]
  dsimp only
  rw [empty, held]
  exact if_pos rfl

theorem endDrive_returns (was : i.keys[k] = r) (ends : r.pending.isSome = true ∨ r.holders.isEmpty = true) :
    endDrive k m i = pass m { i with
      unitsInUse := i.unitsInUse - 3
      keys := i.keys.set k { r with
        state := .returning
        driveEnd := none
        returnEnd := some (m.now + m.map.keys[k].returnTime * 100)
        channel := r.channel.switch m.now .off } } := by
  have fails : (r.pending.isNone && !r.holders.isEmpty) = false := by
    rcases ends with some | empty
    · rw [← Option.not_isSome, some]
      rfl
    · rw [empty, Bool.not_true, Bool.and_false]
  unfold endDrive
  rw [was]
  dsimp only
  rw [fails]
  exact if_neg Bool.false_ne_true

/-! ### Return expiry (R104, R107) -/

/-- A promoted strike that is ahead of PT keeps its fire time, and one that is not fires at PT. -/
theorem promote_ahead {pt : Nat} (ahead : pt < st.fire) :
    r.promote pt st = { r with state := .armed, armed := some st, pending := none, holdStart := none } := by
  unfold KeyRecord.promote
  rw [Nat.max_eq_left (Nat.le_of_lt ahead)]

theorem promote_due {pt : Nat} (due : st.fire ≤ pt) : r.promote pt st
    = { r with state := .armed, armed := some { st with fire := pt }, pending := none, holdStart := none } := by
  unfold KeyRecord.promote
  rw [Nat.max_eq_right due]

theorem expireReturn_rests (was : i.keys[k] = r) (state : r.state = .returning) (empty : r.pending = none) :
    expireReturn k m i
      = { i with keys := i.keys.set k { r with returnEnd := none, state := .rest, holders := ⟨false, false, false⟩ } } := by
  unfold expireReturn
  rw [was]
  dsimp only
  rw [state, empty]
  rfl

theorem expireReturn_promotes (was : i.keys[k] = r) (state : r.state = .returning ∨ r.state = .shed)
    (pending : r.pending = some st) :
    expireReturn k m i = askIfDue m k (setKey k (KeyRecord.promote { r with returnEnd := none } m.pt st) i) := by
  unfold expireReturn
  rw [was]
  dsimp only
  rcases state with state | state <;> rw [state, pending]

theorem expireReturn_shed (was : i.keys[k] = r) (state : r.state = .shed) (empty : r.pending = none) :
    expireReturn k m i = { i with keys := i.keys.set k { r with returnEnd := none } } := by
  unfold expireReturn
  rw [was]
  dsimp only
  rw [state, empty]
  rfl

/-! ### A drop (R97, R130, R144) -/

/-- The one of two entries that drops first, the one that stands on equal moments. -/
def earlierDrop (best : Option WaitEntry) (x : WaitEntry) : Option WaitEntry :=
  match best with
  | none => some x
  | some b => if x.dropMoment < b.dropMoment then some x else best

theorem firstDrop_eq (i : Instrument) : firstDrop i = i.waitList.foldl earlierDrop none := rfl

theorem earlierDrop_after {x : WaitEntry} {n : Nat} : ∀ {l : List WaitEntry} {best : Option WaitEntry},
    (∀ y ∈ l, n < y.dropMoment) → (∀ y, best = some y → n < y.dropMoment) →
    l.foldl earlierDrop best = some x → n < x.dropMoment
  | [], _, _, holds, chosen => holds x chosen
  | e :: l, best, all, holds, chosen => by
    refine earlierDrop_after (l := l) (best := earlierDrop best e) (fun y mem => all y (List.mem_cons_of_mem _ mem)) ?_ chosen
    intro y chosen
    unfold earlierDrop at chosen
    split at chosen
    · exact Option.some.inj chosen ▸ all e List.mem_cons_self
    · split at chosen
      · exact Option.some.inj chosen ▸ all e List.mem_cons_self
      · exact holds y chosen

theorem earlierDrop_stays {x : WaitEntry} : ∀ {l : List WaitEntry}, (∀ y ∈ l, x.dropMoment ≤ y.dropMoment) →
    l.foldl earlierDrop (some x) = some x
  | [], _ => rfl
  | e :: l, all => by
    have stays : earlierDrop (some x) e = some x := if_neg (Nat.not_lt.2 (all e List.mem_cons_self))
    rw [List.foldl_cons, stays]
    exact earlierDrop_stays fun y mem => all y (List.mem_cons_of_mem _ mem)

/-- The first entry with the least drop moment is the first to drop. -/
theorem firstDrop_of_split {x : WaitEntry} {front back : List WaitEntry} (list : i.waitList = front ++ x :: back)
    (later : ∀ y ∈ front, x.dropMoment < y.dropMoment) (notBefore : ∀ y ∈ back, x.dropMoment ≤ y.dropMoment) :
    firstDrop i = some x := by
  have chosen : earlierDrop (front.foldl earlierDrop none) x = some x := by
    cases best : front.foldl earlierDrop none with
    | none => rfl
    | some b => exact if_pos (earlierDrop_after (best := none) later nofun best)
  rw [firstDrop_eq, list, List.foldl_append, List.foldl_cons, chosen]
  exact earlierDrop_stays notBefore

/-- The instrument with an entry gone from the list and its drop noticed. -/
def dropNoticed (e : WaitEntry) (i : Instrument) : Instrument :=
  { i with
    waitList := i.waitList.filter fun y => decide (y.requester ≠ e.requester)
    noticesA := i.noticesA ||| 0x004
    noticesB := i.noticesB ||| 0x004 }

/-- A key's record with the strike it waited with gone, and its holders. -/
def KeyRecord.freed (r : KeyRecord) : KeyRecord :=
  { r with armed := none, requestMoment := none, holders := ⟨false, false, false⟩ }

theorem dropOnly_key {e : WaitEntry} (asks : e.requester = .key k) (was : i.keys[k] = r) :
    dropOnly m e i = match r.pending with
      | some st => askIfDueOnly m k (setKey k (r.freed.promote m.pt st) { dropNoticed e i with dropped := i.dropped + 1 })
      | none => { dropNoticed e i with dropped := i.dropped + 1, keys := i.keys.set k { r.freed with state := .rest } } := by
  have was' : (withdraw (.key k) i).keys[k] = r := was
  unfold dropOnly
  rw [asks]
  dsimp only
  unfold dropKeyOnly
  dsimp only
  rw [raiseBoth_keys, was', dropNoticed, asks]
  unfold KeyRecord.freed
  cases r.pending <;> rfl

theorem dropOnly_rests {e : WaitEntry} (asks : e.requester = .key k) (was : i.keys[k] = r) (empty : r.pending = none) :
    dropOnly m e i = { dropNoticed e i with
      dropped := i.dropped + 1, keys := i.keys.set k { r.freed with state := .rest } } := by
  rw [dropOnly_key asks was, empty]

theorem askIfDueOnly_of_armed (state : i.keys[k].state = .armed) (armed : i.keys[k].armed = some st) :
    askIfDueOnly m k i = if st.fire ≤ m.pt then askOnly m k i else i := by
  simp only [askIfDueOnly, state, armed]

theorem askIfDueOnly_setKey (state : r.state = .armed) (armed : r.armed = some st) : askIfDueOnly m k (setKey k r i)
    = if st.fire ≤ m.pt then
        placeRequest m (.key k) (setKey k { r with state := .wait, requestMoment := some m.now } i)
      else setKey k r i := by
  rw [askIfDueOnly_of_armed (st := st) (by rwa [setKey_self]) (by rwa [setKey_self]), askOnly, setKey_self, setKey_setKey]

theorem dropOnly_arms {e : WaitEntry} (asks : e.requester = .key k) (was : i.keys[k] = r) (pending : r.pending = some st)
    (ahead : m.pt < st.fire) : dropOnly m e i = { dropNoticed e i with
      dropped := i.dropped + 1
      keys := i.keys.set k { r.freed with state := .armed, armed := some st, pending := none, holdStart := none } } := by
  rw [dropOnly_key asks was, pending]
  dsimp only
  rw [promote_ahead ahead, askIfDueOnly_setKey rfl rfl, if_neg (Nat.not_le.2 ahead)]
  rfl

theorem dropOnly_asks {e : WaitEntry} (asks : e.requester = .key k) (was : i.keys[k] = r) (pending : r.pending = some st)
    (due : st.fire ≤ m.pt) : dropOnly m e i = { dropNoticed e i with
      dropped := i.dropped + 1
      waitList := insertWait ⟨.key k, m.now, m.now + m.map.supply.lateLimit * 1000⟩ (dropNoticed e i).waitList
      keys := i.keys.set k { r.freed with
        state := .wait
        armed := some { st with fire := m.pt }
        pending := none
        holdStart := none
        requestMoment := some m.now } } := by
  rw [dropOnly_key asks was, pending]
  dsimp only
  rw [promote_due due, askIfDueOnly_setKey rfl rfl, if_pos (Nat.le_refl _)]
  rfl

theorem dropOnly_pedal {e : WaitEntry} {d : PedalName} (asks : e.requester = .pedal d) : dropOnly m e i
    = setPedal d { i.pedal d with requestMoment := none, holders := ⟨false, false, false⟩ }
        { dropNoticed e i with pedalDropped := i.pedalDropped + 1 } := by
  unfold dropOnly
  rw [asks, dropNoticed, asks]
  cases d <;> rfl

/-! ### A release (R102) -/

theorem release_ignored (was : i.keys[k] = r) (absent : r.holders.has o = false) : release k o m i = i := by
  unfold release
  rw [was, absent]
  exact if_neg Bool.false_ne_true

theorem release_others (was : i.keys[k] = r) (present : r.holders.has o = true) (held : (r.holders.erase o).isEmpty = false) :
    release k o m i = { i with keys := i.keys.set k { r with holders := r.holders.erase o } } := by
  unfold release
  rw [was, if_pos present]
  dsimp only
  rw [held, if_neg Bool.false_ne_true]
  rfl

/-- The last source to leave a key empties it, and a pass follows where a unit returns. -/
theorem release_last (was : i.keys[k] = r) (present : r.holders.has o = true) (empty : (r.holders.erase o).isEmpty = true) :
    release k o m i = if r.state = .hold
      then pass m (emptiedOnly m k { i with keys := i.keys.set k { r with holders := r.holders.erase o } })
      else emptiedOnly m k { i with keys := i.keys.set k { r with holders := r.holders.erase o } } := by
  unfold release
  rw [was, if_pos present]
  dsimp only
  rw [if_pos empty]
  rfl

end

section
variable {s : State} {k : Key} {t : Nat}

theorem exec_driveEnd (running : s.running = true) (drives : s.perf.instrument.keys[k].state = .drive)
    (moment : s.perf.instrument.keys[k].driveEnd = some t) : exec (.driveEnd k) s = .next (settled s { advanceTo t s.perf with
      instrument := endDrive k ((advanceTo t s.perf).moment s.env) s.perf.instrument }) := by
  have reached : driveMoment k s.perf.instrument = some t := (if_pos drives).trans moment
  rw [exec_moment (c := .driveEnd k) (moment := fun _ p => driveMoment k p.instrument)
    (f := fun e _ => onInstrument e (endDrive k)) running rfl reached, onInstrument, advanceTo_instrument]

theorem exec_returnExpiry (running : s.running = true) (moment : s.perf.instrument.keys[k].returnEnd = some t) :
    exec (.returnExpiry k) s = .next (settled s { advanceTo t s.perf with
      instrument := expireReturn k ((advanceTo t s.perf).moment s.env) s.perf.instrument }) := by
  rw [exec_moment (c := .returnExpiry k) (moment := fun _ p => p.instrument.keys[k].returnEnd)
    (f := fun e _ => onInstrument e (expireReturn k)) running rfl moment, onInstrument, advanceTo_instrument]

theorem exec_dropMoment {x : WaitEntry} (running : s.running = true) (first : firstDrop s.perf.instrument = some x) :
    exec .dropMoment s = .next (settled s { advanceTo x.dropMoment s.perf with
      instrument := pass ((advanceTo x.dropMoment s.perf).moment s.env)
        (dropOnly ((advanceTo x.dropMoment s.perf).moment s.env) x s.perf.instrument) }) := by
  have reached : dropMoment s.perf.instrument = some x.dropMoment := congrArg (Option.map WaitEntry.dropMoment) first
  rw [exec_moment (c := .dropMoment) (moment := fun _ p => dropMoment p.instrument) (f := fun e _ => onInstrument e dropFirst)
    running rfl reached, onInstrument, advanceTo_instrument, dropFirst, first]

end

/-- Settles O51: what each of the four does at a key, or at the requester that is dropped, by what it finds there. -/
theorem keysReturn : Obligations.KeysReturn := by
  refine ⟨fun k t s running later => ?events, fun m e i => ?drop, fun k o m i => ?release⟩
  case events =>
    intro i r p m
    have now : m.now = t := advanceTo_now later
    refine ⟨fun drives moment => ⟨fun empty held => ?_, fun ends => ?_⟩, fun moment => ?_,
      fun x front back list before after first => ?_⟩
    · rw [exec_driveEnd running drives moment, endDrive_holds rfl empty held,
        show ((advanceTo t s.perf).moment s.env).now = t from now]
      rfl
    · rw [exec_driveEnd running drives moment, endDrive_returns rfl ends,
        show ((advanceTo t s.perf).moment s.env).now = t from now]
      rfl
    · have executed := exec_returnExpiry running moment
      intro timed changes
      refine ⟨fun state empty => ?_, fun st state pending ahead => ?_, fun st state pending due => ?_, fun state empty => ?_⟩
      · exact executed.trans (by rw [expireReturn_rests rfl state empty])
      · have ahead' : ((advanceTo t s.perf).moment s.env).pt < st.fire := ahead
        refine executed.trans ?_
        rw [expireReturn_promotes rfl state pending, promote_ahead ahead', askIfDue_setKey_waits rfl rfl ahead']
        rfl
      · have due' : st.fire ≤ ((advanceTo t s.perf).moment s.env).pt := due
        refine executed.trans ?_
        rw [expireReturn_promotes rfl state pending, promote_due due']
        rfl
      · exact executed.trans (by rw [expireReturn_shed rfl state empty])
    · subst first
      exact exec_dropMoment running (firstDrop_of_split list before after)
  case drop =>
    intro left
    refine ⟨fun k asks => ?_, fun d asks => dropOnly_pedal asks⟩
    intro freed becomes
    exact ⟨fun empty => dropOnly_rests asks rfl empty, fun st pending ahead => dropOnly_arms asks rfl pending ahead,
      fun st pending due => dropOnly_asks asks rfl pending due⟩
  case release =>
    intro r left becomes
    refine ⟨release_ignored rfl, release_others rfl, fun present empty => ?_⟩
    have last := release_last (m := m) (i := i) rfl present empty
    obtain ⟨holds, shed, other⟩ := emptiedOnly_set m k i left
    refine ⟨fun state => ?_, fun state returns => ?_, fun state gone => ?_, fun notHold notShed => ?_⟩
    · rw [last, if_pos state, holds state]
    · refine last.trans ((if_neg (by rw [state]; decide)).trans ((shed state).trans ?_))
      rw [if_pos returns]
    · refine last.trans ((if_neg (by rw [state]; decide)).trans ((shed state).trans ?_))
      rw [if_neg (by simp [left, gone])]
    · exact last.trans ((if_neg notHold).trans (other notHold notShed))

end Sys2Proof.Machine
end

section
/-! PROOFS. Down and up of a pedal, where it stands, the keys it cuts, and its travels (O52). -/

namespace Sys2Proof.Machine

section
variable {m : Moment} {d : PedalName} {o : Origin} {i : Instrument} {r : PedalRecord}

/-! ### Down (R121 to R125) -/

theorem pedalDown_held (was : i.pedal d = r) (present : r.holders.has o = true) : pedalDown d o m i = i := by
  unfold pedalDown
  rw [was]
  exact if_pos present

theorem pedalDown_joins (was : i.pedal d = r) (absent : r.holders.has o = false) (held : r.holders.isEmpty = false) :
    pedalDown d o m i = setPedal d { r with holders := r.holders.insert o } i := by
  unfold pedalDown
  rw [was]
  dsimp only
  rw [absent, held, if_neg Bool.false_ne_true, if_neg Bool.false_ne_true]

theorem has_of_isEmpty {x : Origins} (empty : x.isEmpty = true) (o : Origin) : x.has o = false := by
  obtain ⟨roll, a, b⟩ := x
  simp only [Origins.isEmpty, Bool.not_eq_true', Bool.or_eq_false_iff] at empty
  obtain ⟨⟨roll, a⟩, b⟩ := empty
  cases o
  · exact roll
  · exact a
  · exact b

/-- The instrument with a pedal's request in the list. -/
def pedalAsked (m : Moment) (d : PedalName) (o : Origin) (r : PedalRecord) (i : Instrument) : Instrument :=
  setPedal d { r with holders := r.holders.insert o, requestMoment := some m.now }
    { i with waitList := insertWait ⟨.pedal d, m.now, m.now + m.map.supply.lateLimit * 1000⟩ i.waitList }

theorem pedalDown_asks (was : i.pedal d = r) (empty : r.holders.isEmpty = true) :
    pedalDown d o m i = pass m (pedalAsked m d o r i) := by
  unfold pedalDown
  rw [was]
  dsimp only
  rw [has_of_isEmpty empty o, if_neg Bool.false_ne_true, if_pos empty]
  unfold pedalAsked
  cases d <;> rfl

/-- A pedal granted a travel of some length goes down from where it stands. -/
theorem grantPedal_travels (was : i.pedal d = r)
    (travels : 0 < (1000 - r.position m.now) * (m.map.pedal d).downTravel / 1000 * 100) :
    grantPedal m d i = setPedal d
      { r with
        state := .goingDown
        requestMoment := none
        travel := some ⟨m.now, r.position m.now, m.now + (1000 - r.position m.now) * (m.map.pedal d).downTravel / 1000 * 100⟩
        assistEnd := none
        bridge := r.bridge.switch m.now (.forward (m.map.pedal d).driveDuty) }
      { i with unitsInUse := i.unitsInUse + 6 - r.charge } := by
  unfold grantPedal
  rw [was]
  exact if_neg (by omega)

theorem setPedal_effective (d : PedalName) (r : PedalRecord) (i : Instrument) (map : RegulationMap) :
    (setPedal d r i).effective map = i.effective map :=
  congrArg (effectiveCapacity · map.supply.capacity) (setPedal_monitor ..)

/-- A pedal that asks with nothing else waiting and room for its units is granted at once. -/
theorem pass_pedalAsked (list : i.waitList = [])
    (travels : 0 < (1000 - r.position m.now) * (m.map.pedal d).downTravel / 1000 * 100)
    (fits : i.unitsInUse + 6 ≤ i.effective m.map) :
    pass m (pedalAsked m d o r i) = setPedal d
      { r with
        holders := r.holders.insert o
        state := .goingDown
        requestMoment := none
        travel := some ⟨m.now, r.position m.now, m.now + (1000 - r.position m.now) * (m.map.pedal d).downTravel / 1000 * 100⟩
        assistEnd := none
        bridge := r.bridge.switch m.now (.forward (m.map.pedal d).driveDuty) }
      { i with unitsInUse := i.unitsInUse + 6 - r.charge } := by
  have queued : (pedalAsked m d o r i).waitList = [⟨.pedal d, m.now, m.now + m.map.supply.lateLimit * 1000⟩] := by
    unfold pedalAsked
    rw [setPedal_waitList, list]
    rfl
  have units : (pedalAsked m d o r i).unitsInUse = i.unitsInUse := setPedal_unitsInUse ..
  have level : (pedalAsked m d o r i).effective m.map = i.effective m.map := setPedal_effective ..
  have record : Instrument.pedal { pedalAsked m d o r i with waitList := [] } d
      = { r with holders := r.holders.insert o, requestMoment := some m.now } := by
    unfold pedalAsked
    cases d <;> rfl
  have position : PedalRecord.position { r with holders := r.holders.insert o, requestMoment := some m.now } m.now
      = r.position m.now := rfl
  refine pass_grants_one queued (by rw [units, level]; exact fits) ?_ (by rw [setPedal_waitList]; exact list) ?_
  · show grantPedal m d { pedalAsked m d o r i with waitList := [] } = _
    rw [grantPedal_travels record (by rw [position]; exact travels), position, ← list]
    unfold pedalAsked
    cases d <;> rfl
  · rw [setPedal_unitsInUse, setPedal_effective]
    exact (Nat.sub_le _ _).trans fits

/-! ### Up (R127, R129) -/

theorem pedalUp_ignored (was : i.pedal d = r) (absent : r.holders.has o = false) : pedalUp d o m i = i := by
  unfold pedalUp
  rw [was, absent]
  exact if_neg Bool.false_ne_true

theorem pedalUp_others (was : i.pedal d = r) (present : r.holders.has o = true) (held : (r.holders.erase o).isEmpty = false) :
    pedalUp d o m i = leavePedalOnly m d o i := by
  unfold pedalUp
  rw [was, if_pos present, held, if_neg Bool.false_ne_true]

theorem pedalUp_last (was : i.pedal d = r) (present : r.holders.has o = true) (empty : (r.holders.erase o).isEmpty = true) :
    pedalUp d o m i = pass m (leavePedalOnly m d o i) := by
  unfold pedalUp
  rw [was, if_pos present, if_pos empty]

/-! ### The cut of the keys in SHED (R108) -/

/-- A key's record once the damper has left it. -/
def KeyRecord.afterCut (r : KeyRecord) : KeyRecord :=
  if r.state = .shed then
    { r with
      state := if r.returnEnd.isSome then .returning else .rest
      holders := ⟨false, false, false⟩
      holdStart := none }
  else r

/-- The cut of a key in SHED, and CUT counted. -/
def cutOne (k : Key) (i : Instrument) : Instrument :=
  if i.keys[k].state = .shed then raiseBoth .cut { setKey k i.keys[k].afterCut i with cut := i.cut + 1 } else i

theorem cutShed_eq (i : Instrument) : cutShed i = allKeys.foldl (fun acc k => cutOne k acc) i := by
  unfold cutShed forKeys
  refine List.foldl_ext _ _ _ fun j k _ => ?_
  unfold cutOne KeyRecord.afterCut
  by_cases state : j.keys[k].state = .shed
  · rw [if_pos state, if_pos state]
    exact if_pos state
  · rw [if_neg state]
    exact if_neg state

theorem cutShed_fold (l : List Key) (i : Instrument) (nodup : l.Nodup) :
    let i' := l.foldl (fun acc k => cutOne k acc) i
    let shed := l.filter fun k => decide (i.keys[k].state = .shed)
    (∀ k : Key, i'.keys[k] = if k ∈ l then i.keys[k].afterCut else i.keys[k])
      ∧ i' = { i with
        keys := i'.keys
        cut := i.cut + BitVec.ofNat 32 shed.length
        noticesA := if shed = [] then i.noticesA else i.noticesA ||| noticeBit .cut
        noticesB := if shed = [] then i.noticesB else i.noticesB ||| noticeBit .cut } := by
  induction l generalizing i with
  | nil => simp
  | cons x l ih =>
    obtain ⟨fresh, nodup'⟩ := List.nodup_cons.1 nodup
    by_cases state : i.keys[x].state = .shed
    · obtain ⟨j, cuts⟩ : ∃ j, cutOne x i = j := ⟨_, rfl⟩
      have sets : j = raiseBoth .cut { setKey x i.keys[x].afterCut i with cut := i.cut + 1 } := cuts ▸ if_pos state
      have other : ∀ k : Key, k ≠ x → j.keys[k] = i.keys[k] := fun k ne => by
        rw [sets, raiseBoth_keys]
        exact getElem_set_ne ne _
      have here : j.keys[x] = i.keys[x].afterCut := by
        rw [sets, raiseBoth_keys]
        exact setKey_self x _ i
      have filters : (l.filter fun k => decide (j.keys[k].state = .shed)) = l.filter fun k => decide (i.keys[k].state = .shed) :=
        List.filter_congr fun k mem => by rw [other k fun same => fresh (same ▸ mem)]
      obtain ⟨keys, rest⟩ := ih j nodup'
      rw [filters] at rest
      refine ⟨fun k => ?_, ?_⟩
      · rw [List.foldl_cons, cuts, keys]
        by_cases same : k = x
        · subst same
          rw [if_neg fresh, here, if_pos List.mem_cons_self]
        · rw [other k same]
          simp [same]
      · rw [List.foldl_cons, cuts, List.filter_cons_of_pos (p := fun k : Key => decide (i.keys[k].state = .shed)) (decide_eq_true state)]
        rw [rest, sets]
        simp only [raiseBoth, setKey, List.length_cons, reduceCtorEq, if_false]
        congr 1
        · rw [BitVec.add_assoc, BitVec.add_comm 1, BitVec.ofNat_add]
          rfl
        · split <;> simp [BitVec.or_assoc]
        · split <;> simp [BitVec.or_assoc]
    · have stays : cutOne x i = i := if_neg state
      obtain ⟨keys, rest⟩ := ih i nodup'
      refine ⟨fun k => ?_, ?_⟩
      · rw [List.foldl_cons, stays, keys]
        by_cases same : k = x
        · subst same
          rw [if_neg fresh, if_pos List.mem_cons_self]
          exact (if_neg state).symm
        · simp [same]
      · rw [List.foldl_cons, stays, List.filter_cons_of_neg (by simpa using state)]
        exact rest

/-! ### The travels (R126, R128) -/

theorem enterDown_sets (was : i.pedal d = r) : enterDown m d i = setPedal d
    { r with
      state := .down
      travel := none
      assistEnd := none
      bridge := r.bridge.switch m.now (.forward (m.map.pedal d).holdDuty) }
    { i with
      unitsInUse := i.unitsInUse - 4
      damperDown := if d = .damper then true else i.damperDown } := by
  unfold enterDown
  rw [was]
  cases d <;> rfl

theorem endAssistOnly_ends (was : i.pedal d = r) (runs : r.assistEnd.isSome = true) : endAssistOnly m d i = setPedal d
    { r with assistEnd := none, bridge := r.bridge.switch m.now .off } { i with unitsInUse := i.unitsInUse - 1 } := by
  unfold endAssistOnly
  rw [was]
  exact if_pos runs

theorem enterUpOnly_stopped (was : i.pedal d = r) (stopped : r.assistEnd = none) :
    enterUpOnly m d i = setPedal d { r with state := .up, travel := none } i := by
  have same : endAssistOnly m d i = i := by
    unfold endAssistOnly
    rw [was]
    exact if_neg (by simp [stopped])
  unfold enterUpOnly
  rw [same]
  dsimp only
  rw [was]

theorem enterUpOnly_ends (was : i.pedal d = r) (runs : r.assistEnd.isSome = true) : enterUpOnly m d i = setPedal d
    { r with state := .up, travel := none, assistEnd := none, bridge := r.bridge.switch m.now .off }
    { i with unitsInUse := i.unitsInUse - 1 } := by
  unfold enterUpOnly
  rw [endAssistOnly_ends was runs]
  dsimp only
  rw [setPedal_pedal, setPedal_setPedal]

end

section
variable {s : State} {d : PedalName} {t : Nat} {x : Travel}

theorem travelMoment_eq {state : PedalState} {i : Instrument} (there : (i.pedal d).state = state)
    (travels : (i.pedal d).travel = some x) : travelMoment state d i = some x.finish := by
  unfold travelMoment
  rw [if_pos there, travels]
  rfl

theorem exec_goingDownTravelEnd (running : s.running = true)
    (reached : travelMoment .goingDown d s.perf.instrument = some t) :
    exec (.goingDownTravelEnd d) s = .next (settled s { advanceTo t s.perf with
      instrument := pass ((advanceTo t s.perf).moment s.env)
        (enterDown ((advanceTo t s.perf).moment s.env) d s.perf.instrument) }) := by
  rw [exec_moment (c := .goingDownTravelEnd d) (moment := fun _ p => travelMoment .goingDown d p.instrument)
    (f := fun e _ => onInstrument e fun m i => pass m (enterDown m d i)) running rfl reached, onInstrument, advanceTo_instrument]

theorem exec_assistEnd (running : s.running = true) (reached : (s.perf.instrument.pedal d).assistEnd = some t) :
    exec (.assistEnd d) s = .next (settled s { advanceTo t s.perf with
      instrument := pass ((advanceTo t s.perf).moment s.env)
        (endAssistOnly ((advanceTo t s.perf).moment s.env) d s.perf.instrument) }) := by
  rw [exec_moment (c := .assistEnd d) (moment := fun _ p => (p.instrument.pedal d).assistEnd)
    (f := fun e _ => onInstrument e fun m i => pass m (endAssistOnly m d i)) running rfl reached, onInstrument,
    advanceTo_instrument]

theorem exec_goingUpTravelEnd (running : s.running = true) (reached : travelMoment .goingUp d s.perf.instrument = some t) :
    exec (.goingUpTravelEnd d) s = .next (settled s { advanceTo t s.perf with
      instrument := pass ((advanceTo t s.perf).moment s.env)
        (enterUpOnly ((advanceTo t s.perf).moment s.env) d s.perf.instrument) }) := by
  rw [exec_moment (c := .goingUpTravelEnd d) (moment := fun _ p => travelMoment .goingUp d p.instrument)
    (f := fun e _ => onInstrument e fun m i => pass m (enterUpOnly m d i)) running rfl reached, onInstrument,
    advanceTo_instrument]

end

/-- Settles O52: down and up by the holder set and the state of the pedal, its position, the cut (`cutShed_fold`), and its travels. -/
theorem pedalsMoveAndTravel : Obligations.PedalsMoveAndTravel := by
  refine ⟨fun d o m i => ?moves, fun r now => ?position, fun i => ?cut, fun d t s running later => ?travels⟩
  case moves =>
    intro r g place time
    obtain ⟨-, -, -, leaves⟩ := pausePauses
    obtain ⟨-, others, withdraws, goes⟩ := leaves m d o i
    refine ⟨pedalDown_held rfl, pedalDown_joins rfl, pedalDown_asks rfl, fun empty list travels _ fits => ?_,
      pedalUp_ignored rfl, fun present held => ?_, fun present empty waits => ?_, fun present empty idle => ?_⟩
    · rw [pedalDown_asks rfl empty]
      exact pass_pedalAsked list travels fits
    · rw [pedalUp_others rfl present held]
      exact others present held
    · rw [pedalUp_last rfl present empty]
      exact congrArg (pass m) (withdraws present empty waits)
    · intro left travel assist leaves
      obtain ⟨six, two, stays⟩ := goes present empty idle
      have up := pedalUp_last (m := m) (i := i) rfl present empty
      exact ⟨fun state => up.trans (congrArg (pass m) (six state)), fun state => up.trans (congrArg (pass m) (two state)),
        fun state => up.trans (congrArg (pass m) (stays state))⟩
  case position =>
    refine ⟨fun state => ?_, fun state => ?_, fun x travel => ?_⟩
    · simp [PedalRecord.position, state]
    · simp [PedalRecord.position, state]
    intro elapsed whole
    refine ⟨fun state done => ?_, fun state done => ?_, fun state before => ?_, fun state before => ?_⟩
    · rw [position_goingDown state travel, if_pos done]
    · rw [position_goingUp state travel, if_pos done]
    · rw [position_goingDown state travel, if_neg (Nat.not_le.2 before)]
    · rw [position_goingUp state travel, if_neg (Nat.not_le.2 before)]
  case cut =>
    obtain ⟨keys, rest⟩ := cutShed_fold allKeys i (List.nodup_finRange 88)
    rw [← cutShed_eq] at keys rest
    refine ⟨fun k => ?_, rest⟩
    rw [keys k, if_pos (show k ∈ allKeys from List.mem_finRange k)]
    rfl
  case travels =>
    intro i r p m
    have now : ((advanceTo t s.perf).moment s.env).now = t := advanceTo_now later
    refine ⟨fun x state travels finish => ?_, fun moment => ?_, fun x state travels finish =>
      ⟨fun stopped => ?_, fun runs => ?_⟩⟩
    · subst finish
      rw [exec_goingDownTravelEnd running (travelMoment_eq state travels), enterDown_sets rfl, now]
      rfl
    · rw [exec_assistEnd running moment, endAssistOnly_ends rfl (by rw [moment]; rfl), now]
    · subst finish
      rw [exec_goingUpTravelEnd running (travelMoment_eq state travels), enterUpOnly_stopped rfl stopped]
    · subst finish
      rw [exec_goingUpTravelEnd running (travelMoment_eq state travels), enterUpOnly_ends rfl runs, now]

end Sys2Proof.Machine
end

section
/-! PROOFS. The grant pass: how it ends, what it keeps, and its moves (O53). -/

namespace Sys2Proof.Machine

section
variable {m : Moment} {i : Instrument} {x : WaitEntry} {rest : List WaitEntry}

/-! ### How a pass ends (R141) -/

/-- Nothing can be shed: the damper is up, or no key is in HOLD. -/
def NoShed (i : Instrument) : Prop := i.damperDown = false ∨ ∀ k : Key, i.keys[k].state ≠ .hold

theorem shedOne_none : shedOne m i = none ↔ NoShed i := by
  unfold shedOne NoShed
  cases i.damperDown with
  | false => simp
  | true => simp [oldestHold_none]

theorem passMove_over (tight : i.effective m.map < i.unitsInUse) : passMove m i = shedOne m i := if_pos tight

theorem passMove_idle (within : i.unitsInUse ≤ i.effective m.map) (list : i.waitList = []) : passMove m i = none := by
  unfold passMove
  rw [if_neg (Nat.not_lt.2 within), list]

theorem passMove_stuck (within : i.unitsInUse ≤ i.effective m.map) (list : i.waitList = x :: rest)
    (tight : i.effective m.map < i.unitsInUse + x.requester.cost) : passMove m i = shedOne m i := by
  unfold passMove
  rw [if_neg (Nat.not_lt.2 within), list]
  exact if_neg (Nat.not_le.2 tight)

/-- A pass that has no move left is over the capacity, out of requests, or stuck at its head, and it sheds no more. -/
theorem passMove_none (ended : passMove m i = none) :
    (i.waitList = [] ∨ (∃ e rest, i.waitList = e :: rest ∧ i.effective m.map < i.unitsInUse + e.requester.cost)
        ∨ i.effective m.map < i.unitsInUse)
      ∧ (i.effective m.map < i.unitsInUse → NoShed i) ∧ (i.waitList ≠ [] → NoShed i) := by
  rcases Nat.lt_or_ge (i.effective m.map) i.unitsInUse with tight | within
  · have none : NoShed i := shedOne_none.1 (passMove_over tight ▸ ended)
    exact ⟨.inr (.inr tight), fun _ => none, fun _ => none⟩
  · cases list : i.waitList with
    | nil => exact ⟨.inl rfl, fun tight => absurd tight (Nat.not_lt.2 within), fun waits => absurd rfl waits⟩
    | cons e rest =>
      have tight : i.effective m.map < i.unitsInUse + e.requester.cost := Nat.lt_of_not_le fun fits =>
        nomatch ended.symm.trans (passMove_grants list fits)
      have none : NoShed i := shedOne_none.1 (passMove_stuck within list tight ▸ ended)
      exact ⟨.inr (.inl ⟨e, rest, rfl, tight⟩), fun _ => none, fun _ => none⟩

/-! ### What a pass keeps -/

theorem grant_cut (m : Moment) (e : WaitEntry) (i : Instrument) : (grant m e i).cut = i.cut := by
  unfold grant
  split
  · unfold grantKey
    dsimp only
    split
    · rfl
    · split <;> rfl
  · next d _ =>
    unfold grantPedal
    dsimp only
    split <;> cases d <;> rfl

theorem pass_cut (m : Moment) (i : Instrument) : (pass m i).cut = i.cut :=
  pass_keeps _ (fun _ _ => rfl) (grant_cut m) (fun _ _ => rfl) i

/-- The entries that a pass grants are taken from the front of the list. -/
theorem pass_waitList (m : Moment) (i : Instrument) : ∃ n, (pass m i).waitList = i.waitList.drop n := by
  refine pass_induct (P := fun j => ∃ n, j.waitList = i.waitList.drop n) (fun j k taken _ _ => taken)
    (fun j e rest taken list _ => ?_) ⟨0, rfl⟩
  obtain ⟨n, taken⟩ := taken
  refine ⟨n + 1, ?_⟩
  rw [grant_waitList, ← List.drop_drop, ← taken, list]
  rfl

/-- A grant takes no more units than the request costs. -/
theorem grant_units_le (m : Moment) (e : WaitEntry) (i : Instrument) :
    (grant m e i).unitsInUse ≤ i.unitsInUse + e.requester.cost := by
  cases asks : e.requester with
  | key k =>
    unfold grant
    rw [asks]
    dsimp only
    unfold grantKey
    dsimp only
    split
    · exact Nat.le_add_right ..
    · split <;> exact Nat.le_refl _
  | pedal d =>
    unfold grant
    rw [asks]
    dsimp only
    unfold grantPedal
    dsimp only
    have cost : (Requester.pedal d).cost = 6 := rfl
    rw [cost]
    split
    · rw [enterDown_sets rfl, setPedal_unitsInUse]
      show (setPedal d _ _).unitsInUse - 4 ≤ _
      rw [setPedal_unitsInUse]
      show i.unitsInUse + 6 - _ - 4 ≤ _
      omega
    · rw [setPedal_unitsInUse]
      exact Nat.sub_le _ _

/-- A pass grants nothing over the capacity. -/
theorem pass_units_le (within : i.unitsInUse ≤ i.effective m.map) : (pass m i).unitsInUse ≤ (pass m i).effective m.map := by
  refine pass_induct (P := fun j => j.unitsInUse ≤ j.effective m.map) (fun j k within _ _ => ?_)
    (fun j e rest within list fits => ?_) within
  · exact (Nat.sub_le _ _).trans within
  · have level : (grant m e { j with waitList := rest }).effective m.map = j.effective m.map :=
      congrArg (effectiveCapacity · m.map.supply.capacity) (grant_monitor ..)
    rw [level]
    exact (grant_units_le m e { j with waitList := rest }).trans fits

theorem pass_effective (m : Moment) (i : Instrument) : (pass m i).effective m.map = i.effective m.map :=
  congrArg (effectiveCapacity · m.map.supply.capacity) (pass_monitor ..)

/-! ### The moves (R96, R106, R142, R143) -/

/-- The key to shed is the one key in HOLD that comes first by its hold start and its number. -/
theorem oldestHold_of_first {k : Key} (holds : i.keys[k].state = .hold)
    (first : ∀ j : Key, i.keys[j].state = .hold → i.keys[k].holdStart.getD 0 < i.keys[j].holdStart.getD 0
      ∨ (i.keys[k].holdStart.getD 0 = i.keys[j].holdStart.getD 0 ∧ k ≤ j)) : oldestHold i = some k := by
  cases chosen : oldestHold i with
  | none => exact absurd holds (oldestHold_none.1 chosen k)
  | some j =>
    have before := oldestHold_oldest chosen k holds
    have after := first j (oldestHold_state chosen)
    refine congrArg some (le_antisymm ?_ ?_)
    · rcases before with less | ⟨-, le⟩
      · rcases after with less' | ⟨same, -⟩
        · exact absurd less (Nat.lt_asymm less')
        · exact absurd less (same ▸ Nat.lt_irrefl _)
      · exact le
    · rcases after with less | ⟨-, le⟩
      · rcases before with less' | ⟨same, -⟩
        · exact absurd less (Nat.lt_asymm less')
        · exact absurd less (same ▸ Nat.lt_irrefl _)
      · exact le

theorem shedOne_first {k : Key} (down : i.damperDown = true) (holds : i.keys[k].state = .hold)
    (first : ∀ j : Key, i.keys[j].state = .hold → i.keys[k].holdStart.getD 0 < i.keys[j].holdStart.getD 0
      ∨ (i.keys[k].holdStart.getD 0 = i.keys[j].holdStart.getD 0 ∧ k ≤ j)) : shedOne m i = some (shedKey m k i) := by
  unfold shedOne
  rw [if_pos down, oldestHold_of_first holds first]
  rfl

theorem grantKey_drives {k : Key} {r : KeyRecord} {st : Strike} (requested : Nat) (was : i.keys[k] = r) (armed : r.armed = some st) :
    grantKey m k requested i = { i with
      unitsInUse := i.unitsInUse + 3
      fired := i.fired + 1
      late := if requested + 2000 < m.now then i.late + 1 else i.late
      noticesA := if requested + 2000 < m.now then i.noticesA ||| 0x002 else i.noticesA
      noticesB := if requested + 2000 < m.now then i.noticesB ||| 0x002 else i.noticesB
      keys := i.keys.set k { r with
        state := .drive
        armed := none
        requestMoment := none
        driveEnd := some (m.now + m.map.keys[k].driveLength * 100)
        channel := r.channel.switch m.now (.forward st.duty) } } := by
  unfold grantKey
  rw [was]
  dsimp only
  rw [armed]
  dsimp only
  by_cases late : requested + 2000 < m.now
  · simp only [late, if_true]
    rfl
  · simp only [late, if_false]
    rfl

/-- A pedal granted a travel of no length is DOWN at once. -/
theorem grantPedal_arrives {d : PedalName} {r : PedalRecord} (was : i.pedal d = r)
    (there : (1000 - r.position m.now) * (m.map.pedal d).downTravel / 1000 * 100 = 0) :
    grantPedal m d i = setPedal d
      { r with
        state := .down
        requestMoment := none
        travel := none
        assistEnd := none
        bridge := (r.bridge.switch m.now (.forward (m.map.pedal d).driveDuty)).switch m.now (.forward (m.map.pedal d).holdDuty) }
      { i with
        unitsInUse := i.unitsInUse + 6 - r.charge - 4
        damperDown := if d = .damper then true else i.damperDown } := by
  unfold grantPedal
  rw [was]
  dsimp only
  rw [if_pos (by omega), enterDown_sets (setPedal_pedal ..)]
  cases d <;> rfl

/-! ### The place of an entry in the list (R140) -/

/-- One entry comes before another: a pedal before a key, then the earlier request, then the lower rank. -/
theorem before_iff (x y : WaitEntry) : x.before y = true ↔
    (x.requester.isPedal = true ∧ y.requester.isPedal = false)
      ∨ (x.requester.isPedal = y.requester.isPedal
        ∧ (x.requestMoment < y.requestMoment
          ∨ (x.requestMoment = y.requestMoment ∧ x.requester.rank < y.requester.rank))) := by
  unfold WaitEntry.before
  by_cases kind : x.requester.isPedal = y.requester.isPedal
  · rw [if_neg (not_not.2 kind)]
    have notApart : ¬ (x.requester.isPedal = true ∧ y.requester.isPedal = false) := fun both =>
      Bool.false_ne_true (both.2.symm.trans (kind.symm.trans both.1))
    by_cases moment : x.requestMoment = y.requestMoment
    · simp [kind, moment]
    · simp [kind, moment]
  · rw [if_pos kind]
    cases px : x.requester.isPedal <;> cases py : y.requester.isPedal <;> simp [px, py] at kind ⊢

end

/-- Settles O53: the pass has ended where it has no move (`passMove_none`), and each move is a shed or a grant. -/
theorem grantPass : Obligations.GrantPass := by
  refine ⟨fun m i => ?_, fun m i => ?_, fun e l => ?_⟩
  · obtain ⟨ended, sheds, waits⟩ := passMove_none (pass_ends m i)
    have capacity := pass_effective m i
    rw [capacity] at ended sheds
    have kept := pass_keptByPause m i
    simp only [Instrument.keptByPause, Prod.mk.injEq] at kept
    obtain ⟨-, -, -, pedalDropped, earlyRelease, -⟩ := kept
    exact ⟨ended, sheds, waits, pass_waitList m i, fun within => (pass_units_le within).trans_eq capacity, pass_monitor m i,
      pass_accepted m i, pass_merged m i, pass_dropped m i, pass_discarded m i, pass_cut m i, earlyRelease, pedalDropped⟩
  · intro capacity goesOn start sheds noShed
    have goes : ∀ {j : Instrument}, passMove m i = some j → goesOn j := pass_of_move
    have shed : i.damperDown = true → passMove m i = shedOne m i → sheds := fun down moves k holds first =>
      goes (moves.trans (shedOne_first down holds first))
    refine ⟨fun tight down => shed down (passMove_over tight),
      fun tight none => pass_of_none ((passMove_over tight).trans (shedOne_none.2 none)),
      fun within list => pass_of_none (passMove_idle within list), fun e rest within list => ?_⟩
    refine ⟨fun tight down => shed down (passMove_stuck within list tight),
      fun tight none => pass_of_none ((passMove_stuck within list tight).trans (shedOne_none.2 none)),
      fun k st asks fits armed => ?_, fun d asks fits => ?_⟩
    · have granted : grant m e { i with waitList := rest } = grantKey m k e.requestMoment { i with waitList := rest } := by
        unfold grant
        rw [asks]
      have moves := passMove_grants (m := m) list (by rw [asks]; exact fits)
      rw [granted, grantKey_drives (i := { i with waitList := rest }) e.requestMoment rfl armed] at moves
      exact goes moves
    · intro r g place time driven
      have granted : grant m e { i with waitList := rest } = grantPedal m d { i with waitList := rest } := by
        unfold grant
        rw [asks]
      have moves := passMove_grants (m := m) list (by rw [asks]; exact fits)
      have was : Instrument.pedal { i with waitList := rest } d = r := by cases d <;> rfl
      rw [granted] at moves
      refine ⟨fun travels => goes ?_, fun there => goes ?_⟩
      · rw [moves, grantPedal_travels was travels]
      · rw [moves, grantPedal_arrives was there]
  · intro place comesFirst
    have ranks : ∀ q : Requester, place q = q.rank := fun q => by
      cases q with
      | key k => rfl
      | pedal d => cases d <;> rfl
    have before : ∀ y, e.before y = true ↔ comesFirst e y := fun y => by
      rw [before_iff, ← ranks, ← ranks]
    obtain ⟨front, back, split, placed, past, ahead⟩ := insertWait_split e l
    exact ⟨front, back, split, placed, fun y mem first => Bool.false_ne_true ((past y mem).symm.trans ((before y).2 first)),
      fun y mem => (before y).1 (ahead y mem)⟩

end Sys2Proof.Machine
end
